-- ==== Sys2Proof/Word.lean ====
section
/-! DEFINITION. The words of the block: 64-bit registers, the 12-bit native word, 48-bit instants (00_scope Table 00-2). -/
namespace Sys2Proof

/-- A register word (00 R6). -/
abbrev Word := BitVec 64

/-- The native word of the block (00 Table 00-2). -/
abbrev W12 := BitVec 12

/-- An instant: the low 48 bits of the time base (04 R86). -/
abbrev Instant := BitVec 48

/-- One byte. -/
abbrev Byte := BitVec 8

end Sys2Proof
end

