-- ==== Sys2Proof/Syntax.lean ====
section
/-! DEFINITION. The commands of the block: one constructor of Instr per row of spec/opcode_table.json, with the row's operands. -/
namespace Sys2Proof

/-- What a host-port access carries beside its offset and data (10 R237): the request's identifier, the
function tag, PRIV, SEC and the initiator number. -/
structure HpAttr where
  id   : BitVec 6
  fn   : BitVec 10
  priv : Bool
  sec  : Bool
  init : BitVec 8
deriving DecidableEq, Repr

/-- A whole host-port request (16 R338). `data` and `strb` hold the beats of a write. -/
structure HpReq where
  attr  : HpAttr
  addr  : BitVec 27
  len   : BitVec 7
  write : Bool
  data  : List Word
  strb  : List Byte
deriving DecidableEq, Repr

/-- The fields of a doorbell word but OP, which the row gives (02 Table 02-2). -/
structure Doorbell where
  event   : BitVec 17
  rsvLow  : BitVec 3
  nomerge : Bool
  rsvHigh : BitVec 3
  payload : BitVec 36
deriving DecidableEq, Repr

/-- A run context: cluster, Porter, context (05 R103, R109). -/
structure RunRef where
  cluster : BitVec 4
  porter  : BitVec 3
  ctx     : BitVec 1
deriving DecidableEq, Repr

/-- The fields of an instruction word but OP (06 Table 06-3). -/
structure LqFields where
  i : Bool
  x : Bool
  d : BitVec 4
  c : BitVec 4
  b : BitVec 4
  a : BitVec 4
  k : W12
deriving DecidableEq, Repr

/-- A request that reaches an arbiter (05 R128): its slot, the run context it is made for when it is a cluster's request, and the
accesses of its group, at most four (05 R129). -/
structure ArbReq where
  slot : BitVec 5
  run  : Option RunRef
  len  : BitVec 3
deriving DecidableEq, Repr

/-- The four PAM4 levels −3, −1, +1, +3 of a lane (11 R251). -/
inductive Pam4 where
  | m3 | m1 | p1 | p3
deriving DecidableEq, Repr

/-- What a scrub read finds in a word (13 R295). -/
inductive ScrubFind where
  | clean | corrected | uncorrectable
deriving DecidableEq, Repr

/-- A LINK message PROPOSE or ANSWER (11 Table 11-4). -/
structure LinkMsg where
  full  : Bool
  good  : BitVec 5
  maxw  : BitVec 3
  index : BitVec 2
deriving DecidableEq, Repr

/-- What a self-test found (15 R322, R323): bit 5k+p a failed Porter, bit k a failed store copy, bit n a
failed replay buffer, and the code and instance of another failed array. -/
structure SelftestResult where
  porters : BitVec 80
  copies  : BitVec 16
  replays : BitVec 4
  other   : Option (BitVec 5 × BitVec 9)
deriving DecidableEq, Repr

/-- The ways a Porter fails its checks other than by the watchdog (05 R113). -/
inductive CheckKind where
  | decode | residue | parity
deriving DecidableEq, Repr

/-- The commands, in the order of spec/opcode_table.json. Where a row is a write or read of one window word,
`h` carries the access's attributes. -/
inductive Instr where
  | hostRequest (q : HpReq)
  | hostResponseTaken (id : BitVec 6)
  | registerWrite (h : HpAttr) (off : BitVec 27) (v : Word)
  | doorbellPost (h : HpAttr) (fn : BitVec 10) (d : Doorbell)
  | doorbellPostKeep (h : HpAttr) (fn : BitVec 10) (d : Doorbell)
  | doorbellCancel (h : HpAttr) (fn : BitVec 10) (d : Doorbell)
  | doorbellMask (h : HpAttr) (fn : BitVec 10) (d : Doorbell)
  | doorbellUnmask (h : HpAttr) (fn : BitVec 10) (d : Doorbell)
  | fenceDoorbell (h : HpAttr) (fn : BitVec 10) (v : Word)
  | heldFenceRelease (fn : BitVec 10)
  | twoKeyRelease (h : HpAttr) (fn : BitVec 10) (v : Word)
  | engineRecord (ch : BitVec 4) (rec : Word)
  | engineRecordRetry (ch : BitVec 4)
  | wireTransition (line : BitVec 10) (level : Bool)
  | wiredLatchRepost (line : BitVec 10)
  | internalPendingRepost (src : BitVec 6)
  | lodgingWindowWord1Write (h : HpAttr) (ev : BitVec 17) (v : Word)
  | lodgingWindowWord0Write (h : HpAttr) (ev : BitVec 17) (v : Word)
  | ledgerWindowHeldWrite (h : HpAttr) (c : W12) (w : BitVec 3) (v : Word)
  | ledgerWindowWord0Write (h : HpAttr) (c : W12) (v : Word)
  | tgtClaim (h : HpAttr) (t : BitVec 8)
  | tgtComplete (h : HpAttr) (t : BitVec 8) (v : Word)
  | tgtThresholdWrite (h : HpAttr) (t : BitVec 8) (v : Word)
  | tgtCfgWrite (h : HpAttr) (t : BitVec 8) (v : Word)
  | rnkGrpCfgWrite (h : HpAttr) (g : BitVec 8) (v : Word)
  | rnkGrpMaskWrite (h : HpAttr) (g : BitVec 8) (k : BitVec 2) (v : Word)
  | heldPlacementRelease (ev : BitVec 17)
  | offerTmoExpiry (t : BitVec 8)
  | serviceTmoExpiry (ev : BitVec 17)
  | timeoutHeldRelease (service : Bool)
  | boostStep (c : W12)
  | deadlineReached (c : W12)
  | twokeyWindowEnd (c : W12)
  | ledgerFiringHeldRelease (twoKey : Bool)
  | curfewRelease (ev : BitVec 17)
  | runQueueTake (k : BitVec 4)
  | dispatchRead (r : RunRef)
  | workSteal (r : RunRef)
  | arbGrant (a : BitVec 6) (reqs : List ArbReq)
  | contextReturn (k : BitVec 4) (p : BitVec 3)
  | holdMaxExpiry (a : BitVec 6)
  | starveLimitExpiry (a : BitVec 6) (slot : BitVec 5)
  | arbCfgWrite (h : HpAttr) (v : Word)
  | commitPhaseB (r : RunRef)
  | serialTokenGrant
  | porterCheckFail (k : BitVec 4) (p : BitVec 3) (kind : CheckKind)
  | porterWatchdogExpiry (k : BitVec 4) (p : BitVec 3)
  | paceWindowEnd (steps : W12)
  | paceRestart (h : HpAttr)
  | selfTrapClear (h : HpAttr)
  | itStoreWrite (h : HpAttr) (i : W12) (v : Word)
  | seal (h : HpAttr)
  | sealComplete
  | storeScrub (copy : BitVec 4) (i : W12) (uncorrectable : Bool)
  | storeReloadComplete (copy : BitVec 4)
  | add (r : RunRef) (f : LqFields)
  | addc (r : RunRef) (f : LqFields)
  | sub (r : RunRef) (f : LqFields)
  | subb (r : RunRef) (f : LqFields)
  | and (r : RunRef) (f : LqFields)
  | or (r : RunRef) (f : LqFields)
  | xor (r : RunRef) (f : LqFields)
  | andn (r : RunRef) (f : LqFields)
  | shl (r : RunRef) (f : LqFields)
  | shr (r : RunRef) (f : LqFields)
  | sar (r : RunRef) (f : LqFields)
  | rol (r : RunRef) (f : LqFields)
  | min (r : RunRef) (f : LqFields)
  | max (r : RunRef) (f : LqFields)
  | cmp (r : RunRef) (f : LqFields)
  | tst (r : RunRef) (f : LqFields)
  | mov (r : RunRef) (f : LqFields)
  | movi (r : RunRef) (f : LqFields)
  | ldi24 (r : RunRef) (f : LqFields)
  | movd (r : RunRef) (f : LqFields)
  | rds (r : RunRef) (f : LqFields)
  | wrs (r : RunRef) (f : LqFields)
  | sel (r : RunRef) (f : LqFields)
  | bitf (r : RunRef) (f : LqFields)
  | br (r : RunRef) (f : LqFields)
  | bc (r : RunRef) (f : LqFields)
  | call (r : RunRef) (f : LqFields)
  | ret (r : RunRef) (f : LqFields)
  | switch (r : RunRef) (f : LqFields)
  | budget (r : RunRef) (f : LqFields)
  | done (r : RunRef) (f : LqFields)
  | trap (r : RunRef) (f : LqFields)
  | ldl (r : RunRef) (f : LqFields)
  | stl (r : RunRef) (f : LqFields)
  | casl (r : RunRef) (f : LqFields)
  | post (r : RunRef) (f : LqFields)
  | cancel (r : RunRef) (f : LqFields)
  | coal (r : RunRef) (f : LqFields)
  | park (r : RunRef) (f : LqFields)
  | setpri (r : RunRef) (f : LqFields)
  | ldx (r : RunRef) (f : LqFields)
  | stx (r : RunRef) (f : LqFields)
  | join (r : RunRef) (f : LqFields)
  | jadd (r : RunRef) (f : LqFields)
  | dlset (r : RunRef) (f : LqFields)
  | dlclr (r : RunRef) (f : LqFields)
  | keyarm (r : RunRef) (f : LqFields)
  | keychk (r : RunRef) (f : LqFields)
  | offer (r : RunRef) (f : LqFields)
  | hint (r : RunRef) (f : LqFields)
  | retract (r : RunRef) (f : LqFields)
  | msix (r : RunRef) (f : LqFields)
  | nqw (r : RunRef) (f : LqFields)
  | fwd (r : RunRef) (f : LqFields)
  | curf (r : RunRef) (f : LqFields)
  | log (r : RunRef) (f : LqFields)
  | fence (r : RunRef) (f : LqFields)
  | fwait (r : RunRef) (f : LqFields)
  | fwaitResume (r : RunRef)
  | rand (r : RunRef) (f : LqFields)
  | steal (r : RunRef) (f : LqFields)
  | time (r : RunRef) (f : LqFields)
  | syncgen (r : RunRef) (f : LqFields)
  | genack (r : RunRef) (f : LqFields)
  | nop (r : RunRef) (f : LqFields)
  | create (h : HpAttr) (fn : BitVec 10)
  | modify (h : HpAttr) (fn : BitVec 10)
  | destroy (h : HpAttr) (fn : BitVec 10)
  | flr (h : HpAttr) (fn : BitVec 10)
  | flrDrainComplete (fn : BitVec 10)
  | freeze (h : HpAttr) (fn : BitVec 10)
  | thaw (h : HpAttr) (fn : BitVec 10)
  | save (h : HpAttr) (fn : BitVec 10)
  | saveSegmentReady
  | restore (h : HpAttr) (fn : BitVec 10)
  | next (h : HpAttr) (fn : BitVec 10) (length : BitVec 19)
  | abort (h : HpAttr) (fn : BitVec 10)
  | snapshotWindowWrite (h : HpAttr) (off : BitVec 18) (v : Word)
  | msixCtlWrite (h : HpAttr) (fn : BitVec 10) (v : Word)
  | msixTableWrite (h : HpAttr) (fn : BitVec 10) (vec : BitVec 11) (high : Bool) (v : Word)
  | nqConsWrite (h : HpAttr) (fn : BitVec 10) (q : BitVec 9) (v : Word)
  | nqBaseWrite (h : HpAttr) (fn : BitVec 10) (q : BitVec 9) (v : Word)
  | nqCfgWrite (h : HpAttr) (fn : BitVec 10) (q : BitVec 9) (v : Word)
  | egressWriteIssue (id : BitVec 5)
  | egressResponse (id : BitVec 5) (code : BitVec 2)
  | close (h : HpAttr)
  | reopen (h : HpAttr)
  | reopenCheckComplete
  | tollRegionWrite (h : HpAttr) (n : BitVec 7) (v : Word)
  | flitSend (port : BitVec 2)
  | flitReceive (port : BitVec 2) (lines : List (List Pam4))
  | ackTimerExpiry (port : BitVec 2)
  | laneWindowEnd (port : BitVec 2)
  | propose (port : BitVec 2) (m : LinkMsg) (seq : W12)
  | answer (port : BitVec 2) (m : LinkMsg) (pseq : W12)
  | parkReq (port : BitVec 2) (seq : W12)
  | parkAck (port : BitVec 2) (pseq : W12)
  | linkZeroise (port : BitVec 2)
  | trainingBlockReceive (port : BitVec 2) (lane : BitVec 3) (blk : BitVec 128)
  | peerDetected (port : BitVec 2) (lane : BitVec 3)
  | eqComplete (port : BitVec 2) (graded : BitVec 5)
  | alignComplete (port : BitVec 2)
  | retrainComplete (port : BitVec 2)
  | spareTrainingBlockSend (port : BitVec 2) (lane : BitVec 3)
  | spareLockTimeout (port : BitVec 2) (lane : BitVec 3)
  | curWakeAssert (port : BitVec 2)
  | wakeDriveTimeout (port : BitVec 2)
  | curCfgWrite (h : HpAttr) (port : BitVec 2) (v : Word)
  | curRetrain (h : HpAttr) (port : BitVec 2)
  | curRemap (h : HpAttr) (port : BitVec 2)
  | curPark (h : HpAttr) (port : BitVec 2)
  | curUnpark (h : HpAttr) (port : BitVec 2)
  | place (port : BitVec 2) (room : BitVec 16) (ev : BitVec 17) (t : BitVec 8) (pri : W12) (payload : BitVec 36) (mask : Bool)
  | update (port : BitVec 2) (room : BitVec 16) (pri : W12) (payload : BitVec 36) (ucount : BitVec 4) (mask : Bool) (hasPayload : Bool)
  | recall (port : BitVec 2) (room : BitVec 16)
  | report (port : BitVec 2) (room : BitVec 16) (ev : BitVec 17) (state : Byte) (ucount : BitVec 4)
  | mirror (port : BitVec 2) (kind : Byte) (seq : BitVec 16) (item : BitVec 32) (low : Word) (data : BitVec 128)
  | mirrorEnd (port : BitVec 2) (seq : BitVec 16) (count : BitVec 16)
  | grant (port : BitVec 2) (n : BitVec 16)
  | returnRooms (port : BitVec 2) (rooms : List (BitVec 16))
  | mirrorAck (port : BitVec 2) (seq : BitVec 16) (freed : BitVec 16)
  | curRoomGrantWrite (h : HpAttr) (v : Word)
  | pairPortWrite (h : HpAttr) (v : Word)
  | promote (h : HpAttr)
  | scrubPass (arr : BitVec 5) (loc : BitVec 19) (found : ScrubFind)
  | sideWordRebuildComplete (ev : BitVec 17)
  | tbStrobe (v : Word)
  | rngJitterHandshake (v : BitVec 32)
  | rngFailRise
  | rngFailFall
  | rngReadyRise
  | rngReadyFall
  | noiseLostClear (h : HpAttr)
  | pwrNap (h : HpAttr)
  | pwrSleep (h : HpAttr)
  | powerEntryPortsParked
  | domainPowerGood (d : BitVec 5) (good : Bool)
  | npAlarmFire
  | wakeExit
  | trimIdleExpiry (k : BitVec 4)
  | pwrCfgWrite (h : HpAttr) (v : Word)
  | peakClr (h : HpAttr)
  | porstNRise
  | porstNFall
  | selftestComplete (r : SelftestResult)
  | keyHandshakeComplete (seed : BitVec 128)
  | fixedScramble (h : HpAttr)
  | startupReady
  | zeroiseRise
  | zeroiseComplete
  | zeroiseFall
  | makerOnlyInstruction (ir : Byte)
  | bypass
  | idcode
  | samplePreload
  | extest
  | startRead
  | loop (port : BitVec 2) (wr : Option Word)
  | paceRead
  | selftest
  | loopStart (h : HpAttr) (port : BitVec 2) (v : Word)
  | loopRespond (h : HpAttr) (port : BitVec 2) (v : Word)
  | loopStop (h : HpAttr) (port : BitVec 2)
  | dloopEnWrite (h : HpAttr) (k : BitVec 1) (v : Word)
  | dloopClaim (k : BitVec 1)
  | dloopComplete (k : BitVec 1)
  | dispatchHoldWrite (h : HpAttr) (hold : Bool)
  | glbBlockIndexWrite (h : HpAttr) (index : BitVec 2)
  | portCountClear (h : HpAttr)
  | flitLockLoss (port : BitVec 2) (lane : BitVec 3)
  | engReqFall (ch : BitVec 4)
  | rngJackFall
  | prbs31BlockReceive (port : BitVec 2) (lane : BitVec 3) (blk : List Pam4)
  | restoreSegmentInstalled
  | destroyDrainComplete (fn : BitVec 10)
deriving DecidableEq, Repr

end Sys2Proof
end

