-- ==== Sys2Proof/Decode.lean ====
section
/-! DEFINITION. The words that spell commands. The block fetches no instructions: spec/opcode_table.json gives no row any bits, so no
word spells a command. -/
namespace Sys2Proof

/-- The command that the low nbits of w spell by the table's bits: none, as no row has any. -/
def decodeTableWord (_nbits _w : Nat) : Option Instr := none

end Sys2Proof
end

