-- ==== Sys2Proof/Config.lean ====
section
/-! DEFINITION. What the spec leaves to the hardware: free values (opaque, no value can be proved of them) and constants an
integrator fixes. Each is named in notes/assumptions/2.md. -/
namespace Sys2Proof.Config

/-- Jitter-grade bits taken from the pool by a curfew draw, a steal or a RAND (08 R204, 05 R110, 07 R190): which of the
pool's bits a draw gets is not stated. Applied to the counter State.free. -/
opaque jitterBits : Nat → BitVec 12

/-- The integrator's manufacturer code of IDCODE [11:1], from tie-offs (15 Table 15-5). -/
opaque manufacturer : BitVec 11

/-- The aperture offset of the register held in word n of the save SRAM: the order of the words of Table 14-6 in the
SRAM is not stated (14 R317). -/
opaque saveWord : Nat → BitVec 27

/-- The transmit coefficients pre, main, post that an end requests in its training blocks (11 Table 11-6, bytes 8 to 10),
and the "coefficients applied" byte 11: their values are not stated. -/
opaque txCoefficients : Nat → BitVec 32

/-- MERGED and REPLACED of a claim that returns a visitor: PLACE carries neither, and 12 R283 leaves them unstated. -/
opaque visitorFlags : Nat → BitVec 2

/-- Whether the partner's store is sealed when the mirror port becomes ACTIVE, and whether the partner has named the port linked to this
block's new mirror port: no message of the link carries either (12 R290). -/
opaque partnerSealed : Nat → Bool
opaque partnerNamed : Nat → Bool

/-- What READ_COPY reads of a word that its copy cannot give: a copy that failed self-test, lost its content in gating, is being reloaded, or
holds the word uncorrectably (05 R124). -/
opaque deadCopyWord : Nat → Nat → BitVec 36

/-- The content of a spare lane's or the boundary register's cells, read by SAMPLE/PRELOAD: not stated (15 R331). -/
opaque boundaryCells : Nat → Word

/-- The cells that a scan of SAMPLE/PRELOAD shifts into the boundary register: the row has no operand that names them (15 R331). -/
opaque boundaryScan : Nat → List Bool

/-- The counting pattern in slot i of a loopback's test flit n (15 R329): the spec names the pattern and states no values. -/
opaque loopPattern : Nat → Nat → BitVec 128

end Sys2Proof.Config
end

