-- ==== Sys2Proof/Machine/State.lean ====
section
/-! DEFINITION. The state of the block as plain data, its value after reset, and the reasons a step can stop. Big arrays are
sparse tables (Tbl): keys strictly rising, no value equal to what an unlisted key reads as. -/
namespace Sys2Proof.Machine

/-- A sparse table: pairs of key and value in the canonical form Tbl's operations keep (Machine/Table.lean). -/
abbrev Tbl (α : Type) := List (Nat × α)

/-! ### Lodging (02, 03, 13) -/

/-- Lodging states (02 Table 02-6). -/
inductive EvState where
  | idle | posted | queued | offered | claimed | claimedRepost | heldJoin | heldTwokey | heldCurfew | parked | faulted
deriving DecidableEq, Repr

/-- A lodging entry (02 R32, Table 02-5). Its reset value is all zero. -/
structure Entry where
  state     : EvState := .idle
  mask      : Bool := false
  level     : Bool := false
  sensitive : Bool := false
  direct    : Bool := false
  coalesce  : Bool := false
  activeLow : Bool := false
  ctxv      : Bool := false
  run       : Bool := false
  priority  : BitVec 12 := 0
  target    : BitVec 10 := 0
  tmode     : BitVec 2 := 0
  function  : BitVec 10 := 0
  context   : BitVec 12 := 0
  cls       : BitVec 3 := 0
  payload   : BitVec 36 := 0
  entryPc   : BitVec 12 := 0
  version   : BitVec 12 := 0
  merges    : BitVec 4 := 0
deriving DecidableEq, Repr

/-- The side word of an entry (13 Table 13-1 code 0x02) with the other records kept beside it: the local target
at which it is a candidate, the group on whose orphan list it waits, its holder (03 R48), the REPLACED mark (03
Table 03-3), its room at a peer (12 R282), UCOUNT and the acknowledged count (12 R285), TASK (13 R299), TRAPPED
(05 R104), the commit lock (05 R115) and the wait for a restore or rebuild (13 R297, R298). -/
structure Side where
  placed   : Option (BitVec 8) := none
  orphan   : Option (BitVec 8) := none
  holder   : Option (BitVec 8) := none
  replaced : Bool := false
  room     : Option (BitVec 2 × BitVec 12) := none
  ucount   : BitVec 4 := 0
  acked    : BitVec 4 := 0
  task     : Bool := false
  taskSeen : Bool := false
  trapped  : Bool := false
  lock     : Option RunRef := none
  wait     : Bool := false
deriving DecidableEq, Repr

/-- A trap record (05 R122, Table 05-1). -/
structure TrapRec where
  event     : BitVec 17
  cause     : BitVec 4
  pc        : BitVec 12
  steps     : BitVec 12
  conflicts : BitVec 2
  serial    : Bool
deriving DecidableEq, Repr

/-- LODG_REJECT (02 Table 02-11). -/
structure LodgReject where
  event    : BitVec 17 := 0
  code     : BitVec 4 := 0
  valid    : Bool := false
  overflow : Bool := false
deriving DecidableEq, Repr

/-- The lodging table. -/
structure Lodging where
  entries   : Tbl Entry := []
  word1     : Tbl (Option Word) := []
  side      : Tbl Side := []
  dispatch  : Tbl (List Nat) := []
  stepTraps : List TrapRec := []
  itinTraps : List TrapRec := []
  srcPend   : Tbl (Option (BitVec 24)) := []
  seed      : BitVec 128 := 0
  scramble  : BitVec 2 := 0
  reject    : LodgReject := {}
deriving DecidableEq, Repr

/-- The wired front end (02 R21 to R23, R45). -/
structure Wired where
  inputs    : BitVec 1024 := 0
  level     : BitVec 1024 := 0
  activeLow : BitVec 1024 := 0
  pend      : BitVec 1024 := 0
  enabled   : Bool := false
deriving DecidableEq, Repr

/-! ### Message ingress (02, 08) -/

/-- A source of stamped postings (08 R198). -/
inductive Source where
  | function (f : BitVec 10)
  | channel (ch : BitVec 4)
deriving DecidableEq, Repr

/-- A posting that has not settled (08 R199): its source, its stamp, and the entry that holds it (none while a fence is
held). -/
structure Posting where
  src   : Source
  stamp : Nat
  event : Option Nat
deriving DecidableEq, Repr

/-- A held fence (08 R201). -/
structure HeldFence where
  fn    : BitVec 10
  tag   : BitVec 12
  stamp : Nat
deriving DecidableEq, Repr

/-- MI_CHn_CFG (02 Table 02-12). -/
structure ChCfg where
  enable : Bool := true
  sens   : Bool := true
  cls    : BitVec 3 := 0
deriving DecidableEq, Repr

/-- An engine channel's wires and the record whose acknowledge is withheld (16 R350). -/
structure Channel where
  req  : Bool := false
  ack  : Bool := false
  held : Option Word := none
deriving DecidableEq, Repr

/-- Message ingress. -/
structure Ingress where
  chCfg      : Tbl ChCfg := []
  denyCnt    : BitVec 16 := 0
  deferCnt   : BitVec 16 := 0
  engDiscard : BitVec 16 := 0
  engWait    : BitVec 16 := 0
  channels   : Tbl Channel := []
  nextStamp  : Nat := 0
  postings   : List Posting := []
  fences     : List HeldFence := []
deriving DecidableEq, Repr

/-! ### Ledger (04) -/

/-- Context states (04 Table 04-1). -/
inductive CtxState where
  | free | opened | lapsed | faulted
deriving DecidableEq, Repr

/-- What a context's call-list instant is (04 R89). -/
inductive NextKind where
  | none | boost | expiry | window
deriving DecidableEq, Repr

/-- A ledger context (04 R80, Table 04-1). Its reset value is all zero. NEXT and NEXT_KIND are computed from the other
fields and the curves (04 R89). -/
structure Ctx where
  state      : CtxState := .free
  dlv        : Bool := false
  expired    : Bool := false
  armed      : Bool := false
  keyOne     : Bool := false
  keysat     : Bool := false
  folv       : Bool := false
  count      : BitVec 12 := 0
  version    : BitVec 12 := 0
  owner      : BitVec 10 := 0
  epoch      : BitVec 12 := 0
  deadline   : Instant := 0
  curve      : BitVec 4 := 0
  step       : BitVec 3 := 0
  boostEnd   : Bool := false
  follow     : BitVec 17 := 0
  floor      : BitVec 12 := 0
  winsel     : BitVec 2 := 0
  keyFirst   : Instant := 0
  keySession : BitVec 12 := 0
  keyInit    : BitVec 8 := 0
  aux        : BitVec 36 := 0
deriving DecidableEq, Repr

/-- A ledger record (04 R95, Table 04-5). -/
structure LedRec where
  context : BitVec 12
  epoch   : BitVec 12
  count   : BitVec 12
  stale   : Bool
  twoKey  : Bool
  armed   : Bool
  keysat  : Bool
deriving DecidableEq, Repr

/-- LEDG_CURVEk_STEPs (04 Table 04-11). -/
structure CurveStep where
  slack : BitVec 36 := 0
  floor : BitVec 12 := 0
  valid : Bool := false
deriving DecidableEq, Repr

/-- LEDG_REJECT (04 Table 04-10). -/
structure LedgReject where
  context  : BitVec 12 := 0
  code     : BitVec 4 := 0
  valid    : Bool := false
  overflow : Bool := false
deriving DecidableEq, Repr

/-- The ledger. `heldWin` lists the two-key firings held on a full queue, oldest first: the context, and whether a release has
already carried out the window's end, so that the record is held alone (04 R96). -/
structure Ledger where
  ctxs       : Tbl Ctx := []
  held       : Tbl (Option Word) := []
  locks      : Tbl (Option RunRef) := []
  waits      : Tbl Bool := []
  expQ       : List LedRec := []
  keyQ       : List LedRec := []
  heldExp    : List Nat := []
  heldWin    : List (Nat × Bool) := []
  keywin     : Tbl (BitVec 32) := []
  curves     : Tbl CurveStep := []
  keyIgnored : BitVec 16 := 0
  keyDup     : BitVec 16 := 0
  keySame    : BitVec 16 := 0
  expStale   : BitVec 16 := 0
  reject     : LedgReject := {}
deriving DecidableEq, Repr

/-! ### Porters, store and arbiters (05, 06, 07) -/

/-- A Porter's state (05 Table 05-11). -/
inductive PorterState where
  | active | spare | failed | off
deriving DecidableEq, Repr

/-- An item of a read set: a lodging entry or a ledger context (05 R114). -/
inductive Item where
  | entry (e : Nat)
  | ctx (c : Nat)
deriving DecidableEq, Repr

/-- An item of the read set with the VERSION recorded and its staged view (05 R114, 07 R165). -/
structure ReadItem where
  item    : Item
  version : BitVec 12
  entry   : Entry
  ctx     : Ctx
deriving DecidableEq, Repr

/-- A staged effect (07 Table 07-1). -/
inductive Effect where
  | flags (e : Nat) (v : BitVec 12)
  | mask (e : Nat) (set : Bool)
  | same (e : Nat)
  | field (e : Nat) (sel : BitVec 12) (v : BitVec 12)
  | post (e : Nat) (payload : BitVec 36) (keep : Bool) (nomerge : Bool)
  | cancel (e : Nat)
  | coal (e : Nat) (payload : BitVec 36)
  | park (e : Nat)
  | setpri (e : Nat) (p : BitVec 12)
  | stx (c : Nat) (v : BitVec 36)
  | join (c : Nat)
  | jadd (c : Nat) (n : BitVec 12) (f : Option Nat) (payload : BitVec 36) (keepPayload : Bool)
  | dlset (c : Nat) (d : Instant) (curve : BitVec 4)
  | dlclr (c : Nat)
  | keyarm (c : Nat) (w : BitVec 2) (f : Option Nat) (payload : BitVec 36) (keepPayload : Bool)
  | offer (e : Nat) (p : BitVec 12) (target : BitVec 10) (tmode : BitVec 2) (c : Option Nat) (payload : BitVec 36) (keepPayload : Bool)
  | fwd (e : Nat) (target : BitVec 10) (room : Option (BitVec 12)) (payload : BitVec 36) (keepPayload : Bool)
  | curf (e : Nat) (cls : BitVec 3)
  | msix (v : BitVec 11)
  | nqw (q : Nat) (body : BitVec 48)
deriving DecidableEq, Repr

/-- What a run is doing: executing, past phase A of a DONE or a FENCE, waiting for the serial token, for an FWAIT, for
room in the egress queue, or for a reload of the store copy. -/
inductive RunPhase where
  | running | commitDone | commitFence | serialWait | fwait (f : BitVec 10) | egressDone | egressFence | reload
deriving DecidableEq, Repr

/-- What is saved at a commit point (06 R140). -/
structure Checkpoint where
  atStart : Bool := true
  pc      : BitVec 12 := 0
  regs    : Tbl (BitVec 12) := []
  z       : Bool := false
  c       : Bool := false
  n       : Bool := false
  f       : Bool := false
  rndv    : Bool := false
  stack   : List (BitVec 12) := []
  budget  : Nat := 0
  own     : Option Effect := none
deriving DecidableEq, Repr

/-- A run context's run (06 R137, 05 R114, R117). -/
structure Run where
  event     : Nat
  entryPc   : BitVec 12
  fn        : BitVec 10
  order     : Nat
  phase     : RunPhase := .running
  pc        : BitVec 12 := 0
  regs      : Tbl (BitVec 12) := []
  z         : Bool := false
  c         : Bool := false
  n         : Bool := false
  f         : Bool := false
  rndv      : Bool := false
  stack     : List (BitVec 12) := []
  steps     : Nat := 0
  budget    : Nat := 0
  reads     : List ReadItem := []
  effects   : List Effect := []
  ownPay    : BitVec 36 := 0
  stlPay    : List Nat := []
  conflicts : Nat := 0
  serial    : Bool := false
  rerun     : Bool := false
  latched   : Tbl (Option (BitVec 48)) := []
  cache     : List (BitVec 12) := []
  cacheGen  : Option (BitVec 12) := none
  steal     : Option Nat := none
  fwaited   : List (BitVec 10) := []
  check     : Checkpoint := {}
deriving DecidableEq, Repr

/-- A Porter: its state, executing context, hint with the context that set it (03 R76), steal counter (05 R112), RAND counter (07
R190), the tasks taken into its contexts but not yet dispatched, which of them a STEAL named (07 R191), and the context it left
for a wait at an arbiter (05 R109). -/
structure Porter where
  state     : PorterState := .off
  exec      : BitVec 1 := 0
  hint      : Option (BitVec 8 × BitVec 1) := none
  stealCtr  : BitVec 4 := 0
  randCtr   : BitVec 12 := 0
  task0     : Option Nat := none
  task1     : Option Nat := none
  named     : BitVec 2 := 0
  switched  : Option (BitVec 1) := none
deriving DecidableEq, Repr

/-- A cluster's run queue: tasks, ticket, and whether bank k + 16 is tried first at the next take (05 R105, R111). -/
structure RunQueue where
  tasks  : List Nat := []
  ticket : BitVec 12 := 0
  turn   : Bool := false
deriving DecidableEq, Repr

/-- What the watchdog knows of a Porter (05 R113): how far its run had come at a strobe, and since when it has come no further. -/
structure Watch where
  order : Nat
  steps : Nat
  turns : Nat
  pc    : BitVec 12
  since : Word
deriving DecidableEq, Repr

/-- The Porter array. `stranded` lists the contexts of failed Porters whose runs wait for a free context of their cluster (05 R113). -/
structure Porters where
  porters    : Tbl Porter := []
  runs       : Tbl (Option Run) := []
  stranded   : List RunRef := []
  watch      : Tbl (Option Watch) := []
  queues     : Tbl RunQueue := []
  order      : Nat := 0
  serialHeld : Option RunRef := none
  serialQ    : List RunRef := []
  stealMin   : BitVec 7 := 2
  switchTurn : BitVec 5 := 4
  watchdog   : BitVec 12 := 0x040
  selfTrap   : Bool := false
  conflict   : BitVec 16 := 0
  serialCnt  : BitVec 16 := 0
  stealCnt   : BitVec 16 := 0
  trapCnt    : BitVec 16 := 0
  pace       : BitVec 12 := 0
  paceMin    : BitVec 12 := 0
  paceMax    : BitVec 12 := 0
  paceValid  : Bool := false
  paceNew    : Bool := true
deriving DecidableEq, Repr

/-- The itinerary store (05 R124 to R127): the words that the powered copies hold, the words in which copy j differs from them at 4,096
x j + word, the words a copy holds uncorrectably, and the copies' states. `reloadSrc` is the detail of copy k's reload, which names
k itself as its source while no copy can serve. -/
structure Store where
  words     : Tbl (BitVec 36) := []
  own       : Tbl (Option (BitVec 36)) := []
  bad       : List (Nat × Nat) := []
  storeOk   : BitVec 16 := 0
  reloading : BitVec 16 := 0
  sealed    : Bool := false
  sealing   : Bool := false
  lostWord  : BitVec 12 := 0
  lost      : Bool := false
  ident     : BitVec 48 := 0
  readCopy  : BitVec 4 := 0
  reloadSrc : Tbl (BitVec 24) := []
deriving DecidableEq, Repr

/-- A running grant (05 R129): the slot, the run context it is for, the accesses of its group, and when it began. -/
structure ArbHold where
  slot  : BitVec 5
  run   : Option RunRef
  len   : BitVec 3
  since : Word
deriving DecidableEq, Repr

/-- A request that waits at an arbiter, or in its cluster behind the one that its slot presents (05 R128, R131, R133). -/
structure ArbWait where
  arb      : BitVec 6
  slot     : BitVec 5
  run      : Option RunRef
  len      : BitVec 3
  since    : Word
  reported : Bool
  turn     : BitVec 5
deriving DecidableEq, Repr

/-- The bank arbiters. `waits` lists the requests in arrival order; a slot presents its first (05 R128). -/
structure Arbiters where
  pri      : Tbl (BitVec 48) := []
  ranks    : Tbl (List Nat) := []
  holds    : Tbl (Option ArbHold) := []
  waits    : List ArbWait := []
  holdMax  : BitVec 12 := 0x080
  starveNs : BitVec 20 := 0x0FA0
  cutoff   : BitVec 16 := 0
  starve   : BitVec 16 := 0
  logArb   : BitVec 6 := 0
  logSlot  : BitVec 5 := 0
  logKind  : Bool := false
  logValid : Bool := false
  logOvf   : Bool := false
deriving DecidableEq, Repr

/-! ### Ranking, delivery, curfew (03, 08) -/

/-- An event a target holds (03 R48) with the start and limit of its service timer (03 R69). Candidates and held events are
numbered: an own event by its identifier, a visitor by 131,072 + 4,096 x home + room. -/
structure HeldEv where
  cand  : Nat
  since : Word
  limit : BitVec 24
  fired : Bool
deriving DecidableEq, Repr

/-- A local target (03 R53, R59, R78). -/
structure Target where
  threshold : BitVec 12 := 0
  enable    : Bool := false
  holdLimit : BitVec 6 := 0
  away      : Bool := false
  offerTmo  : BitVec 16 := 0
  svcTmo    : BitVec 24 := 0
  strayEv   : BitVec 17 := 0
  stray     : Bool := false
  strayOvf  : Bool := false
  strayWide : Bool := false
  front     : List Nat := []
  bands     : Tbl (List Nat) := []
  offered   : Option Nat := none
  offerAt   : Word := 0
  offerLim  : BitVec 16 := 0
  held      : List HeldEv := []
deriving DecidableEq, Repr

/-- A target group (03 R50, R51). -/
structure Group where
  policy  : BitVec 2 := 0
  last    : BitVec 8 := 0
  mask    : BitVec 256 := 0
  orphans : List Nat := []
deriving DecidableEq, Repr

/-- A timeout record (03 R70, Table 03-4). -/
structure TmoRec where
  event   : BitVec 17
  service : Bool
  target  : BitVec 8
  group   : Bool
  repost  : Bool
  age     : BitVec 20
deriving DecidableEq, Repr

/-- A timeout held on a full queue (03 R72): the event, its target and when its timer began. -/
structure HeldTmo where
  event  : Nat
  target : BitVec 8
  since  : Word
deriving DecidableEq, Repr

/-- A placement held for source order (08 R199): the event and the stamped postings that gave rise to it. -/
structure HeldPlacement where
  event : Nat
  reqs  : List (Source × Nat)
deriving DecidableEq, Repr

/-- A visitor's state at its host block (12 R283, R284). -/
inductive VisState where
  | queued | offered | claimed
deriving DecidableEq, Repr

/-- A visitor in one of this block's rooms (12 R279, R283). -/
structure Visitor where
  home     : BitVec 2
  room     : BitVec 12
  event    : BitVec 17
  target   : BitVec 8
  priority : BitVec 12
  payload  : BitVec 36
  mask     : Bool
  ucount   : BitVec 4
  state    : VisState
  holder   : Option (BitVec 8)
  store    : BitVec 12
deriving DecidableEq, Repr

/-- The ranking network and the delivery unit. `unsettled` lists the targets whose offer waits to change for another step's group
(05 R116). -/
structure Ranking where
  targets  : Tbl Target := []
  unsettled : List Nat := []
  groups   : Tbl Group := []
  orders   : Tbl Nat := []
  nextOrd  : Nat := 1
  offerQ   : List TmoRec := []
  svcQ     : List TmoRec := []
  heldOff  : List HeldTmo := []
  heldSvc  : List HeldTmo := []
  offerCnt : BitVec 16 := 0
  svcCnt   : BitVec 16 := 0
  displace : BitVec 16 := 0
  strayCnt : BitVec 16 := 0
  heldPl   : List HeldPlacement := []
  visitors : Tbl (Option Visitor) := []
deriving DecidableEq, Repr

/-- CRF_CLASSn (08 Table 08-8). -/
structure CurfewClass where
  mode    : BitVec 2 := 0
  qlog    : BitVec 5 := 4
  minHold : BitVec 20 := 0
  jbits   : BitVec 4 := 0
  jstep   : BitVec 12 := 0
deriving DecidableEq, Repr

/-- A hold word: what the curfew unit keeps beside a held entry (08 R206), with its LODGE order (08 R205). -/
structure Hold where
  event : Nat
  p     : Instant
  j     : Option (BitVec 8)
  mark  : Bool
  cls   : BitVec 3
  order : Nat
deriving DecidableEq, Repr

/-- The curfew unit and the noise it draws on. -/
structure Curfew where
  classes   : Tbl CurfewClass := []
  holds     : List Hold := []
  nextOrd   : Nat := 0
  ready     : Bool := false
  fail      : Bool := false
  noiseLost : Bool := false
  pool      : List (BitVec 32) := []
  used      : Nat := 0
  lastWord  : BitVec 32 := 0
  equalRun  : Nat := 0
  jreq      : Bool := false
  jdrop     : Bool := false
  kreq      : Bool := false
  kdrop     : Bool := false
  jack      : Bool := false
  released  : BitVec 16 := 0
  fallRel   : BitVec 16 := 0
  drawEmpty : BitVec 16 := 0
  repeats   : BitVec 16 := 0
deriving DecidableEq, Repr

/-! ### Functions (09) and egress (16) -/

/-- Function states (09 Table 09-1). -/
inductive FnState where
  | absent | inService | reset | frozen | saving | restoring
deriving DecidableEq, Repr

/-- A notification queue (09 R222 to R224) with the slots NQW effects have reserved (07 R184). -/
structure NQueue where
  base    : Word := 0
  enable  : Bool := false
  logsize : BitVec 4 := 0
  prod    : BitVec 16 := 0
  phase   : Bool := false
  cons    : BitVec 16 := 0
  reserved : Nat := 0
deriving DecidableEq, Repr

/-- An MSI-X table entry and its pending bit (09 R225). -/
structure Vector where
  addr    : Word := 0
  data    : BitVec 32 := 0
  ctl     : BitVec 32 := 1
  pending : Bool := false
deriving DecidableEq, Repr

/-- A function: state, generation, descriptor (09 Table 09-6), queues, vectors, wait list (09 R228), whether QUIET has been seen
to rise, and whether its contexts were restored and await THAW (09 R228). -/
structure Fn where
  state    : FnState := .absent
  gen      : BitVec 12 := 0
  lodgBase : BitVec 9 := 0
  lodgN    : BitVec 9 := 0
  ledgBase : BitVec 8 := 0
  ledgN    : BitVec 9 := 0
  nqBase   : BitVec 10 := 0
  nqN      : BitVec 7 := 0
  vecBase  : BitVec 11 := 0
  vecN     : BitVec 9 := 0
  priCeil  : BitVec 12 := 0
  share    : BitVec 8 := 0
  user     : BitVec 36 := 0
  enable   : Bool := false
  fmask    : Bool := false
  index    : BitVec 2 := 0
  queues   : Tbl NQueue := []
  vectors  : Tbl Vector := []
  waitList : List Nat := []
  quiet    : Bool := false
  restored : Bool := false
deriving DecidableEq, Repr

/-- A function command that drains runs: FLR or DESTROY, the state to return to, and the dispatch order below which runs are
waited for (09 R227). -/
structure Drain where
  fn      : BitVec 10
  destroy : Bool
  back    : FnState
  barrier : Nat
deriving DecidableEq, Repr

/-- A SAVE or RESTORE under way (09 R230, R235): which, the function, the instant S, the bytes of the image (built, or received
so far), the bytes already segmented, and the segment length given by NEXT while a segment is being installed. -/
structure Migration where
  saving  : Bool
  fn      : BitVec 10
  instant : Instant
  image   : List Byte
  done    : Nat
  install : Option Nat
deriving DecidableEq, Repr

/-- The function manager. -/
structure FnMgr where
  fns       : Tbl Fn := []
  arg0      : Word := 0
  arg1      : Word := 0
  arg2      : Word := 0
  code      : BitVec 4 := 0
  resFn     : BitVec 10 := 0
  busy      : Bool := false
  valid     : Bool := false
  refused   : Bool := false
  refusedFn : BitVec 10 := 0
  defers    : BitVec 16 := 0
  discards  : BitVec 16 := 0
  drops     : BitVec 16 := 0
  migFn     : BitVec 10 := 0
  migPhase  : BitVec 2 := 0
  segReady  : Bool := false
  segLen    : BitVec 19 := 0
  last      : Bool := false
  dirty     : Bool := false
  error     : BitVec 4 := 0
  zeroDone  : Bool := false
  drain     : Option Drain := none
  mig       : Option Migration := none
deriving DecidableEq, Repr

/-- An egress write (16 R344): kind, function, address, data, the queue or vector number of GLB_EP_LOG, the commit group the
partner must acknowledge first (12 R289), and the run context whose commit made it. -/
structure EgWrite where
  msix  : Bool
  fn    : BitVec 10
  addr  : Word
  data  : BitVec 128
  index : BitVec 11
  group : Option (BitVec 16)
  run   : Option RunRef
deriving DecidableEq, Repr

/-- The egress port. -/
structure Egress where
  queue       : List EgWrite := []
  spill       : List EgWrite := []
  outstanding : List (BitVec 5 × EgWrite) := []
  denied      : BitVec 16 := 0
  logFn       : BitVec 10 := 0
  logKind     : Bool := false
  logIndex    : BitVec 11 := 0
  logValid    : Bool := false
  logOvf      : Bool := false
deriving DecidableEq, Repr

/-! ### Host port and Tollgate (10, 16) -/

/-- The codes of a host-port response (16 Table 16-2). -/
inductive Code where
  | ok | deny | defer
deriving DecidableEq, Repr

/-- A response given and not yet taken (16 R341). -/
structure HpRsp where
  id   : BitVec 6
  code : Code
  data : List Word
deriving DecidableEq, Repr

/-- A slot of the host port: the request's identifier, the slot number, whether the access is checked (10 R244), and the words that a read
touched (16 R341). -/
structure HpSlot where
  id      : BitVec 6
  slot    : Nat
  checked : Bool
  words   : Nat
deriving DecidableEq, Repr

/-- The host port. -/
structure HostPort where
  slots     : List HpSlot := []
  untaken   : List HpReq := []
  stalled   : List HpReq := []
  responses : List HpRsp := []
  answer    : Option (Code × List Word) := none
  denies    : BitVec 16 := 0
  defers    : BitVec 16 := 0
deriving DecidableEq, Repr

/-- The Tollgate's gate (10 Table 10-6). -/
inductive Gate where
  | opened | closing | closed | fault
deriving DecidableEq, Repr

/-- TOLL_REGIONn (10 Table 10-2). -/
structure Region where
  valid    : Bool := false
  read     : Bool := false
  write    : Bool := false
  needPriv : Bool := false
  needSec  : Bool := false
  fnAny    : Bool := false
  fn       : BitVec 10 := 0
  initAny  : Bool := false
  init     : BitVec 8 := 0
  sizeLog  : BitVec 5 := 0
  base     : BitVec 21 := 0
deriving DecidableEq, Repr

/-- TOLL_LOG (10 Table 10-8). -/
structure TollLog where
  offset   : BitVec 27 := 0
  fn       : BitVec 10 := 0
  init     : BitVec 8 := 0
  priv     : Bool := false
  sec      : Bool := false
  write    : Bool := false
  len      : BitVec 7 := 0
  code     : BitVec 4 := 0
  valid    : Bool := false
  overflow : Bool := false
deriving DecidableEq, Repr

/-- The Tollgate. -/
structure Tollgate where
  gate       : Gate := .opened
  imprecise  : Bool := false
  regions    : Tbl Region := []
  check      : Option (Tbl Region) := none
  log        : TollLog := {}
  violations : BitVec 32 := 0
  closes     : BitVec 16 := 0
  faults     : BitVec 16 := 0
  fltRegion  : BitVec 7 := 0
  fltCode    : BitVec 3 := 0
  fltOther   : BitVec 7 := 0
  fltValid   : Bool := false
deriving DecidableEq, Repr

/-! ### Courier links, peers and pair mode (11, 12) -/

/-- Port states (11 Table 11-5). -/
inductive PortState where
  | off | detect | eq | align | active | retrain | park
deriving DecidableEq, Repr

/-- Why a link went down or a port stays OFF (11 Table 11-10 CAUSE). -/
inductive Cause where
  | none | ackTmo | noLane | quota | peerZeroise | disable | sameIndex | revision
deriving DecidableEq, Repr

/-- What a sequenced flit carries (11 Table 11-2): slots of one channel, or a LINK message in slot 0. -/
inductive FlitBody where
  | data (rsp : Bool) (slots : List (BitVec 128))
  | link (msg : BitVec 128)
deriving DecidableEq, Repr

/-- A flit of the replay buffer (11 R259). -/
structure Stored where
  seq  : W12
  body : FlitBody
deriving DecidableEq, Repr

/-- A receive lane (11 R256, R271). -/
structure Lane where
  corr    : BitVec 24 := 0
  blame   : BitVec 8 := 0
  locked  : Bool := false
  lockRun : Nat := 0
  lastAt  : Word := 0
  rxKey   : BitVec 31 := 0
  txKey   : BitVec 31 := 0
deriving DecidableEq, Repr

/-- An end's own open proposal (11 R267): its KIND and the SEQ of its flit once sent. -/
structure Proposal where
  full : Bool
  seq  : Option W12
deriving DecidableEq, Repr

/-- A Courier port (11 R277). `line` holds what each physical transmit lane last carried; `ready` and `readyOut` are this end's ready bit and
that a training block has carried it (11 R272); `wakeIn` is when the peer last drove CURn_WAKE
(16 R356); `badSlot` is a mirror slot's failed read-back
(13 R295). -/
structure Port where
  enable     : Bool := false
  autoRetry  : Bool := true
  maxWidth   : BitVec 3 := 4
  laneDis    : BitVec 5 := 0
  ackTmo     : BitVec 16 := 0x00FA
  blameThr   : BitVec 8 := 0x08
  win        : BitVec 16 := 0x03E8
  corrThr    : BitVec 24 := 0x010000
  state      : PortState := .off
  offHold    : Bool := false
  width      : BitVec 3 := 0
  map        : BitVec 5 := 0
  oldMap     : BitVec 5 := 0
  oldWidth   : BitVec 3 := 0
  graded     : BitVec 5 := 0
  bad        : BitVec 5 := 0
  peerGood   : BitVec 5 := 0
  peerMaxw   : BitVec 3 := 0
  peerIndex  : BitVec 2 := 0
  peerRev    : BitVec 8 := 0
  peerReady  : Bool := false
  peerValid  : Bool := false
  cause      : Cause := .none
  tmoRun     : BitVec 4 := 0
  replayAt   : Option Nat := none
  nakAck     : Option W12 := none
  txNext     : W12 := 0
  rxExp      : W12 := 0
  buffer     : List Stored := []
  nak        : Bool := false
  timerAt    : Word := 0
  winAt      : Word := 0
  reqQ       : List (BitVec 128) := []
  rspQ       : List (BitVec 128) := []
  linkQ      : List (BitVec 128) := []
  urgent     : Bool := false
  rspRun     : Nat := 0
  proposal   : Option Proposal := none
  again      : Bool := false
  kindFull   : Bool := false
  parkAsked  : Bool := false
  parkOwed   : Option W12 := none
  parkSeq    : Option W12 := none
  kept       : Bool := false
  wakeIn     : Option Word := none
  wakeOut    : Option Word := none
  lanes      : Tbl Lane := []
  failed     : BitVec 16 := 0
  replays    : BitVec 16 := 0
  ackTmoCnt  : BitVec 16 := 0
  nakSent    : BitVec 16 := 0
  corrected  : BitVec 32 := 0
  duplicate  : BitVec 12 := 0
  retrains   : BitVec 12 := 0
  quotaCnt   : BitVec 8 := 0
  lastFlit   : List Byte := []
  line       : Tbl (List Pam4) := []
  ready      : Bool := false
  readyOut   : Bool := false
  badSlot    : Bool := false
  mirrorHead : Option (BitVec 128) := none
deriving DecidableEq, Repr

/-- A room this block holds at a peer (12 R280): which of the final report and the RETURN have come, and whether the PLACE has been sent
(12 R282, R285). -/
structure Room where
  event    : Nat
  reported : Bool
  returned : Bool
  sent     : Bool
deriving DecidableEq, Repr

/-- What this block knows of peer block b (12 Table 12-8): the grant, the greatest grant given to b since the link became ACTIVE,
the rooms held there, those reserved by staged effects, the entries waiting for rooms, and the reports and returns waiting to be
sent. -/
structure Peer where
  granted : BitVec 13 := 0
  given   : BitVec 13 := 0
  valid   : Bool := false
  stray   : Bool := false
  rooms   : Tbl (Option Room) := []
  reserved : List (BitVec 12) := []
  waiting : List Nat := []
  reports : Tbl (Option (BitVec 128)) := []
  returns : List (BitVec 12) := []
deriving DecidableEq, Repr

/-- Pair states (12 Table 12-11). -/
inductive PairState where
  | off | waiting | paired | broken | promoted | moving
deriving DecidableEq, Repr

/-- A received MIRROR slot pair (12 Table 12-1): KIND, item and 24 bytes of data. -/
structure MirrorItem where
  kind : Byte
  item : BitVec 32
  low  : Word
  data : BitVec 128
deriving DecidableEq, Repr

/-- The Courier links, remote delivery and pair mode. `backlog` counts the mirror slots sent and not yet acknowledged; `mirrorQ` holds the
commit groups that wait for room at the partner or for the new port while MOVING (12 R288, R290). -/
structure Courier where
  ports      : Tbl Port := []
  route      : BitVec 12 := 0
  roomGrant  : BitVec 52 := 0
  peers      : Tbl Peer := []
  pairEn     : Bool := false
  pairPort   : BitVec 2 := 0
  oldPort    : BitVec 2 := 0
  partner    : BitVec 2 := 0
  pairAuto   : Bool := false
  zpromote   : Bool := false
  pair       : PairState := .off
  groupNo    : BitVec 16 := 0
  ackedNo    : BitVec 16 := 0
  backlog    : BitVec 13 := 0
  mirrorIn   : List MirrorItem := []
  mirrorQ    : List (List (BitVec 128)) := []
  shEntries  : Tbl Entry := []
  shCtxs     : Tbl Ctx := []
  shFns      : Tbl Fn := []
  shHolds    : List Hold := []
  unrestored : List Item := []
deriving DecidableEq, Repr

/-! ### Errors, power, test, guest book, global (13 to 17) -/

/-- The error registers (13 R307), and the uncorrectable words of items being restored, whose outcome is not yet known (13 Table
13-2 step 5). -/
structure Errors where
  array     : BitVec 5 := 0
  location  : BitVec 19 := 0
  outcome   : BitVec 3 := 0
  valid     : Bool := false
  overflow  : Bool := false
  stimEvent : BitVec 17 := 0
  stimKind  : BitVec 2 := 0
  stimValid : Bool := false
  stimOvf   : Bool := false
  corrected : BitVec 16 := 0
  uncorr    : BitVec 16 := 0
  restored  : BitVec 16 := 0
  stimLost  : BitVec 16 := 0
  zeroised  : Bool := false
  zcause    : BitVec 2 := 0
  shadow    : Bool := false
  owed      : List (BitVec 5 × BitVec 19) := []
deriving DecidableEq, Repr

/-- Power states (14 Table 14-10). -/
inductive PwrState where
  | run | trim | entering | nap | sleep | exiting
deriving DecidableEq, Repr

/-- A wake source (14 Table 14-4). -/
inductive WakeSrc where
  | wired (line : BitVec 10) | host | engine (ch : BitVec 4) | courier (port : BitVec 2) | alarm | internal
deriving DecidableEq, Repr

/-- The night porter and the power controller (14 R319, 16 R353 to R355, 13 R304). -/
structure NightPorter where
  state     : PwrState := .run
  target    : BitVec 2 := 0
  result    : BitVec 4 := 0
  resultV   : Bool := false
  gated     : List (BitVec 4) := []
  ungateDue : BitVec 16 := 0
  idleSince : Tbl (Option Word) := []
  trimEn    : Bool := false
  storeRet  : Bool := false
  trimRet   : Bool := true
  trimMin   : BitVec 6 := 0x04
  trimIdle  : BitVec 12 := 0x040
  trimWake  : BitVec 7 := 0x08
  off       : BitVec 24 := 0
  ret       : BitVec 24 := 0
  pswEn     : BitVec 24 := 0
  retEn     : BitVec 24 := 0
  pswGood   : BitVec 24 := 0
  wWired    : Bool := false
  wHost     : Bool := false
  wEngine   : Bool := false
  wCourier  : Bool := false
  wAlarm    : Bool := false
  wInternal : Bool := false
  wEntry    : Bool := false
  wLine     : BitVec 10 := 0
  wPort     : BitVec 2 := 0
  wChannel  : BitVec 4 := 0
  wakeDue   : Option WakeSrc := none
  naps      : BitVec 16 := 0
  sleeps    : BitVec 16 := 0
  refusedC  : BitVec 16 := 0
  early     : BitVec 16 := 0
  fireAt    : Instant := 0
  alarmV    : Bool := false
  fired     : Bool := false
  wbuf      : List HpReq := []
  wbufLost  : List (BitVec 6) := []
  peak      : BitVec 10 := 0
  fullSeen  : Bool := false
  wakeEn    : BitVec 1024 := BitVec.allOnes 1024
  latch     : BitVec 1024 := 0
  saved     : Bool := false
  saveLost  : List Nat := []
  asleep    : Bool := false
  porst     : Bool := false
  porstDue  : Bool := false
  porstBack : Bool := false
  zIn       : Bool := false
  zRun      : Bool := false
  zHold     : Bool := false
  zInternal : Bool := false
  zMaker    : Bool := false
  zDone     : Bool := false
deriving DecidableEq, Repr

/-- Start-up phases (15 Table 15-7). -/
inductive Phase where
  | reset | selftest | rngWait | seeding | ready | failed
deriving DecidableEq, Repr

/-- TST_LOOPn_CFG and TST_LOOPn_STATUS (15 Tables 15-9, 15-10), whether the loopback runs, and the blocks it has checked (15 R328, R329). -/
structure Loopback where
  depth   : BitVec 2 := 0
  respond : Bool := false
  pattern : Bool := false
  lanes   : BitVec 5 := 0x1F
  flits   : BitVec 32 := 0
  state   : BitVec 2 := 0
  code    : BitVec 4 := 0
  ok      : BitVec 32 := 0
  bad     : BitVec 16 := 0
  running : Bool := false
  checked : Nat := 0
deriving DecidableEq, Repr

/-- TST_DLOOPk (15 Table 15-11), with the agent's closing mark, the claimed event, and the claim's instant. -/
structure DLoop where
  en      : Bool := false
  target  : BitVec 8 := 0
  delay   : BitVec 12 := 0
  hold    : BitVec 12 := 0
  closing : Bool := false
  claimed : Option Nat := none
  at_     : Word := 0
deriving DecidableEq, Repr

/-- The TAP instructions (15 Table 15-5). -/
inductive TapIr where
  | bypass | idcode | sample | extest | startRead | loop | paceRead | selftest | maker (ir : Byte)
deriving DecidableEq, Repr

/-- Start-up and test. `bsr` holds the cells that SAMPLE/PRELOAD loads, `pins` what EXTEST drives of them (15 R331). -/
structure Test where
  phase     : Phase := .reset
  bistDone  : Bool := false
  bistPass  : Bool := false
  bistArray : BitVec 5 := 0
  bistInst  : BitVec 9 := 0
  clusters  : BitVec 16 := 0
  portsLost : BitVec 4 := 0
  loops     : Tbl Loopback := []
  dloops    : Tbl DLoop := []
  tapIr     : TapIr := .idcode
  tapDr     : List Word := []
  bsr       : List Bool := []
  pins      : Option (List Bool) := none
  maker     : Option Byte := none
deriving DecidableEq, Repr

/-- GB_RANGEk (15 Table 15-13). -/
structure GbRange where
  lo : BitVec 17 := 0
  hi : BitVec 17 := 0
  en : Bool := false
deriving DecidableEq, Repr

/-- The guest book and its 256 KiB staging buffer (15 R332 to R335). `gapDue` is the GB_GAP post that a GAP record owes
(R334). -/
structure GuestBook where
  enable   : Bool := false
  logEn    : Bool := false
  stateEn  : Bool := false
  ranges   : Tbl GbRange := []
  prod     : BitVec 16 := 0
  cons     : BitVec 16 := 0
  pending  : BitVec 16 := 0
  pendWhy  : BitVec 2 := 0
  written  : BitVec 32 := 0
  lostCnt  : BitVec 32 := 0
  lastTime : Option (BitVec 16) := none
  gapDue   : Option (BitVec 16) := none
  buffer   : Tbl Byte := []
deriving DecidableEq, Repr

/-- The global registers (17 R364). -/
structure Global where
  index    : BitVec 2 := 0
  aliasV   : Bool := false
  alias_   : BitVec 2 := 0
  hold     : Bool := false
  stepmax  : BitVec 12 := 0x100
  scratch  : Tbl Word := []
  tbSeen   : Bool := false
  tbLate   : Bool := false
  time     : Word := 0
deriving DecidableEq, Repr

/-- The state of the block. `free` counts the free values drawn (notes/assumptions/2.md); `blocked` holds the commands whose
access group met a commit lock and which take effect after the commit (05 R116); `pending` is the queue of commands, first in, first out. -/
structure State where
  hp : HostPort := {}
  ep : Egress := {}
  tg : Tollgate := {}
  lt : Lodging := {}
  wf : Wired := {}
  mi : Ingress := {}
  lg : Ledger := {}
  pa : Porters := {}
  st : Store := {}
  ab : Arbiters := {}
  rn : Ranking := {}
  cf : Curfew := {}
  fm : FnMgr := {}
  cu : Courier := {}
  er : Errors := {}
  np : NightPorter := {}
  ts : Test := {}
  gb : GuestBook := {}
  gl : Global := {}
  free : Nat := 0
  blocked : List Instr := []
  pending : List Instr := []
deriving DecidableEq, Repr

/-- The block while PORST_N is low: every register at the reset value its field table gives, every array at its reset value, no
request, no command waiting (15 R320, 16 R353). -/
def State.reset : State := {}

/-- The reasons a step stops the machine. No command of this block does; the type has the one constructor it needs to be named. -/
inductive Fault where
  /-- Raised by no command: every command of the table has an effect or leaves the state as it is. Safe. -/
  | unreachable
deriving DecidableEq, Repr

/-- The reasons a command has no meaning. -/
inductive Refusal where
  /-- Raised by an arm of exec whose command has no meaning yet, by the row's name. Safe: the model stops. -/
  | notModelled (mnemonic : String)
deriving DecidableEq, Repr

end Sys2Proof.Machine
end

