-- ==== Sys2Proof/Machine/Table.lean ====
section
/-! DEFINITION. Sparse tables and bit fields: the one place where arrays are read and written and where fields are packed. -/
namespace Sys2Proof.Machine

/-- The value at key k: d where the table lists none. -/
def tget {α : Type} (d : α) : Tbl α → Nat → α
  | [], _ => d
  | (j, v) :: t, k => if j == k then v else tget d t k

/-- The table with value v at key k; a value equal to d leaves k unlisted. -/
def tset {α : Type} [DecidableEq α] (d : α) : Tbl α → Nat → α → Tbl α
  | [], k, v => if v = d then [] else [(k, v)]
  | (j, u) :: t, k, v =>
    if j < k then (j, u) :: tset d t k v
    else if j = k then (if v = d then t else (k, v) :: t)
    else (if v = d then (j, u) :: t else (k, v) :: (j, u) :: t)

/-- Change the value at one key. -/
def tmod {α : Type} [DecidableEq α] (d : α) (t : Tbl α) (k : Nat) (f : α → α) : Tbl α := tset d t k (f (tget d t k))

/-- The table whose n keys from k hold f of what t, listing no key below k, holds there. -/
def tfill {α : Type} [DecidableEq α] (d : α) (f : Nat → α → α) : Nat → Nat → Tbl α → Tbl α
  | 0, _, t => t
  | n + 1, k, [] => let v := f k d; if v = d then tfill d f n (k + 1) [] else (k, v) :: tfill d f n (k + 1) []
  | n + 1, k, (j, u) :: t =>
    if j = k then (let v := f k u; if v = d then tfill d f n (k + 1) t else (k, v) :: tfill d f n (k + 1) t)
    else (let v := f k d
          if v = d then tfill d f n (k + 1) ((j, u) :: t) else (k, v) :: tfill d f n (k + 1) ((j, u) :: t))

/-- Change the values at the n keys from lo. -/
def trange {α : Type} [DecidableEq α] (d : α) (t : Tbl α) (lo n : Nat) (f : Nat → α → α) : Tbl α :=
  t.takeWhile (fun p => p.1 < lo) ++ tfill d f n lo (t.dropWhile (fun p => p.1 < lo))

/-- Change every listed value; f keeps d. -/
def tmap {α : Type} [DecidableEq α] (d : α) (t : Tbl α) (f : Nat → α → α) : Tbl α :=
  t.filterMap fun p => let v := f p.1 p.2; if v = d then none else some (p.1, v)

/-- The canonical form: keys strictly rising, no value equal to d. -/
def twf {α : Type} [DecidableEq α] (d : α) : Tbl α → Bool
  | [] => true
  | [(_, v)] => v ≠ d
  | (j, v) :: (k, u) :: t => j < k && v ≠ d && twf d ((k, u) :: t)

/-- The keys at which two canonical tables differ, with fuel for both lists' lengths. -/
def tdiff {α : Type} [DecidableEq α] : Nat → Tbl α → Tbl α → List Nat
  | 0, _, _ => []
  | _ + 1, [], b => b.map (·.1)
  | _ + 1, a, [] => a.map (·.1)
  | n + 1, (j, u) :: a, (k, v) :: b =>
    if j = k then (if u = v then tdiff n a b else j :: tdiff n a b)
    else if j < k then j :: tdiff n a ((k, v) :: b) else k :: tdiff n ((j, u) :: a) b

/-- The keys at which two tables differ. -/
def tchanged {α : Type} [DecidableEq α] (a b : Tbl α) : List Nat := if a = b then [] else tdiff (a.length + b.length + 1) a b

/-- The fields of a word, least significant first, each a width and a value. -/
def pack : List (Nat × Nat) → Nat
  | [] => 0
  | (w, v) :: fs => v % 2 ^ w + 2 ^ w * pack fs

/-- A register word from its fields, least significant first. -/
def word (fs : List (Nat × Nat)) : Word := BitVec.ofNat 64 (pack fs)

/-- Field [lo + w - 1 : lo] of v. -/
def fld {n : Nat} (v : BitVec n) (lo w : Nat) : BitVec w := v.extractLsb' lo w

/-- Bit i of v. -/
def bit {n : Nat} (v : BitVec n) (i : Nat) : Bool := v.getLsbD i

/-- v with bit i set to b. -/
def setBit {n : Nat} (v : BitVec n) (i : Nat) (b : Bool) : BitVec n :=
  if b then v ||| (BitVec.ofNat n 1 <<< i) else v &&& ~~~(BitVec.ofNat n 1 <<< i)

/-- v plus 1, saturating at all ones. -/
def satInc {n : Nat} (v : BitVec n) : BitVec n := if v = BitVec.allOnes n then v else v + 1

/-- v plus k, saturating at all ones. -/
def satAdd {n : Nat} (v : BitVec n) (k : Nat) : BitVec n := BitVec.ofNat n (min (v.toNat + k) (2 ^ n - 1))

/-- A bit as a number. -/
def b2n (b : Bool) : Nat := if b then 1 else 0

/-- Byte i of v. -/
def byteOf {n : Nat} (v : BitVec n) (i : Nat) : Byte := v.extractLsb' (8 * i) 8

/-- The little-endian bytes of the number v, n of them. -/
def leBytes (n v : Nat) : List Byte := (List.range n).map fun i => BitVec.ofNat 8 (v / 2 ^ (8 * i))

/-- The number that bytes hold, little-endian. -/
def leNat : List Byte → Nat
  | [] => 0
  | b :: bs => b.toNat + 256 * leNat bs

/-- Insert into a list sorted by lt, before the first element x with lt a x. -/
def insertBy {α : Type} (lt : α → α → Bool) (a : α) : List α → List α
  | [] => [a]
  | x :: xs => if lt a x then a :: x :: xs else x :: insertBy lt a xs

/-- Sort by insertion, keeping the order of equals. -/
def sortBy {α : Type} (lt : α → α → Bool) (l : List α) : List α := l.foldl (fun acc a => insertBy lt a acc) []

/-- Repeat a change of state n times. -/
def iter {α : Type} (f : α → α) : Nat → α → α
  | 0, a => a
  | n + 1, a => iter f n (f a)

end Sys2Proof.Machine
end

