-- ==== Sys2Proof/Machine/Ops.lean ====
section
/-! DEFINITION. Named reads and writes of the indexed parts of State. Every array is reached through these. -/
namespace Sys2Proof.Machine

/-! ### The indexed parts: an unlisted key reads as the element's reset value -/

def State.entry (s : State) (e : Nat) : Entry := tget {} s.lt.entries e
def State.setEntry (s : State) (e : Nat) (v : Entry) : State := { s with lt.entries := tset {} s.lt.entries e v }
def State.side (s : State) (e : Nat) : Side := tget {} s.lt.side e
def State.modSide (s : State) (e : Nat) (f : Side → Side) : State := { s with lt.side := tmod {} s.lt.side e f }
def State.dlist (s : State) (b : Nat) : List Nat := tget [] s.lt.dispatch b
def State.modDlist (s : State) (b : Nat) (f : List Nat → List Nat) : State :=
  { s with lt.dispatch := tmod [] s.lt.dispatch b f }
def State.ctx (s : State) (c : Nat) : Ctx := tget {} s.lg.ctxs c
def State.setCtx (s : State) (c : Nat) (v : Ctx) : State := { s with lg.ctxs := tset {} s.lg.ctxs c v }
def State.ctxLock (s : State) (c : Nat) : Option RunRef := tget none s.lg.locks c
def State.setCtxLock (s : State) (c : Nat) (l : Option RunRef) : State := { s with lg.locks := tset none s.lg.locks c l }
def State.ctxWait (s : State) (c : Nat) : Bool := tget false s.lg.waits c
def State.target (s : State) (t : Nat) : Target := tget {} s.rn.targets t
def State.modTarget (s : State) (t : Nat) (f : Target → Target) : State := { s with rn.targets := tmod {} s.rn.targets t f }
def State.group (s : State) (g : Nat) : Group := tget {} s.rn.groups g
def State.modGroup (s : State) (g : Nat) (f : Group → Group) : State := { s with rn.groups := tmod {} s.rn.groups g f }
def State.visitor (s : State) (v : Nat) : Option Visitor := tget none s.rn.visitors v
def State.setVisitor (s : State) (v : Nat) (x : Option Visitor) : State := { s with rn.visitors := tset none s.rn.visitors v x }
def State.fn (s : State) (f : Nat) : Fn := tget {} s.fm.fns f
def State.modFn (s : State) (f : Nat) (g : Fn → Fn) : State := { s with fm.fns := tmod {} s.fm.fns f g }
def State.port (s : State) (n : Nat) : Port := tget {} s.cu.ports n
def State.modPort (s : State) (n : Nat) (g : Port → Port) : State := { s with cu.ports := tmod {} s.cu.ports n g }
def State.peer (s : State) (b : Nat) : Peer := tget {} s.cu.peers b
def State.modPeer (s : State) (b : Nat) (g : Peer → Peer) : State := { s with cu.peers := tmod {} s.cu.peers b g }
def State.queue (s : State) (k : Nat) : RunQueue := tget {} s.pa.queues k
def State.modQueue (s : State) (k : Nat) (g : RunQueue → RunQueue) : State := { s with pa.queues := tmod {} s.pa.queues k g }
def State.porter (s : State) (k p : Nat) : Porter := tget {} s.pa.porters (5 * k + p)
def State.modPorter (s : State) (k p : Nat) (g : Porter → Porter) : State :=
  { s with pa.porters := tmod {} s.pa.porters (5 * k + p) g }
def State.chan (s : State) (c : Nat) : Channel := tget {} s.mi.channels c
def State.modChan (s : State) (c : Nat) (g : Channel → Channel) : State := { s with mi.channels := tmod {} s.mi.channels c g }
def State.chCfg (s : State) (c : Nat) : ChCfg := tget {} s.mi.chCfg c
def State.region (s : State) (n : Nat) : Region := tget {} s.tg.regions n
def State.crfClass (s : State) (c : Nat) : CurfewClass := tget {} s.cf.classes c
def State.loopb (s : State) (n : Nat) : Loopback := tget {} s.ts.loops n
def State.modLoop (s : State) (n : Nat) (g : Loopback → Loopback) : State := { s with ts.loops := tmod {} s.ts.loops n g }
def State.dloop (s : State) (k : Nat) : DLoop := tget {} s.ts.dloops k
def State.modDloop (s : State) (k : Nat) (g : DLoop → DLoop) : State := { s with ts.dloops := tmod {} s.ts.dloops k g }
def State.gbRange (s : State) (k : Nat) : GbRange := tget {} s.gb.ranges k
def State.curve (s : State) (k st : Nat) : CurveStep := tget {} s.lg.curves (8 * k + st)
def State.keyWindow (s : State) (w : Nat) : BitVec 32 := tget 0 s.lg.keywin w
def State.levels (s : State) (a : Nat) : BitVec 48 := tget 0x555555555555 s.ab.pri a
def State.ranks (s : State) (a : Nat) : List Nat := tget (List.range 24) s.ab.ranks a
def State.storeWord (s : State) (i : Nat) : BitVec 36 := tget 0 s.st.words i

/-- The number of a run context: 10 to a cluster, 2 to a Porter. -/
def runKey (r : RunRef) : Nat := 10 * r.cluster.toNat + 2 * r.porter.toNat + r.ctx.toNat

/-- The run context of a number. -/
def runOfKey (n : Nat) : RunRef := ⟨BitVec.ofNat 4 (n / 10), BitVec.ofNat 3 (n % 10 / 2), BitVec.ofNat 1 (n % 2)⟩

def State.run (s : State) (r : RunRef) : Option Run := tget none s.pa.runs (runKey r)
def State.setRun (s : State) (r : RunRef) (x : Option Run) : State := { s with pa.runs := tset none s.pa.runs (runKey r) x }
def State.runPorter (s : State) (r : RunRef) : Porter := s.porter r.cluster.toNat r.porter.toNat

/-- Every run in progress, with its context. -/
def State.allRuns (s : State) : List (RunRef × Run) :=
  s.pa.runs.filterMap fun p => p.2.map fun x => (runOfKey p.1, x)

/-- Advance the counter of free values (notes/assumptions/2.md). -/
def State.draw (s : State) : State := { s with free := s.free + 1 }

/-- Entry e is inside another step's access group: a commit lock, a restore or a rebuild (05 R116, 13 R297, R298). -/
def State.busy (s : State) (e : Nat) : Bool := (s.side e).lock.isSome || (s.side e).wait

/-! ### The whole block -/

/-- Start-up has completed (15 R320). -/
def State.ready (s : State) : Bool := s.ts.phase = .ready

/-- The block is in RUN or TRIM (14 Table 14-1). -/
def State.awake (s : State) : Bool := s.np.state = .run || s.np.state = .trim

/-- The clockless core acts: start-up complete, no ZEROISE, power on. -/
def State.live (s : State) : Bool := s.ready && s.awake && !s.np.zRun && !s.np.zHold

/-- The low 48 bits of the time base as of the latest strobe (04 R86, 16 R352). -/
def State.now (s : State) : Instant := fld s.gl.time 0 48

/-- Instant i has been reached at t (04 R86). -/
def reached (t i : Instant) : Bool := (t - i).toNat < 2 ^ 47

/-- Nanoseconds from a to now; the block uses 48 bits of the count (16 R352). -/
def State.age (s : State) (a : Word) : Nat := (fld (s.gl.time - a) 0 48).toNat

/-- Index i is this block's own or its alias (12 R292). -/
def State.ownIndex (s : State) (i : BitVec 2) : Bool := i = s.gl.index || (s.gl.aliasV && i = s.gl.alias_)

/-- The itinerary store counts as sealed for RWL fields (00 R9). -/
def State.locked (s : State) : Bool := s.st.sealed || s.st.sealing

/-- The CONSTANT fallback is in force (08 R208). -/
def State.fallback (s : State) : Bool := !s.cf.ready || s.cf.fail || s.cf.noiseLost

/-- A domain's logic is unpowered (14 Table 14-12 OFF). -/
def State.domainOff (s : State) (d : Nat) : Bool := bit s.np.off d

/-- The power domain of Courier port n (14 Table 14-1). -/
def portDomain (n : Nat) : Nat := if n < 2 then 21 else 22

/-- Cluster k is gated by TRIM (14 R311). -/
def State.isGated (s : State) (k : Nat) : Bool := s.np.gated.contains (BitVec.ofNat 4 k)

/-- Domain d has its supply and no clamp (14 R309): a clamp stands from before its switch is lowered until exit has restored its registers. -/
def State.powered (s : State) (d : Nat) : Bool := bit s.np.pswEn d && !s.domainOff d

/-- Cluster k's copy of the store cannot be reached: it is gated, or its domain has no power. -/
def State.noCopy (s : State) (k : Nat) : Bool := s.isGated k || s.domainOff k

/-- The active Porters of cluster k (05 R103). -/
def State.activeIn (s : State) (k : Nat) : Nat := (List.range 5).countP fun p => (s.porter k p).state = .active

/-- Cluster k is powered and has an active Porter (05 R105). -/
def State.clusterUp (s : State) (k : Nat) : Bool := !s.isGated k && 0 < s.activeIn k

/-- The cluster whose queue banks k and k + 16 feed: k, or the next one up that is powered with an active Porter (05 R105). -/
def State.adopter (s : State) (k : Nat) : Option Nat :=
  ((List.range 16).map fun i => (k + i) % 16).find? fun j => s.clusterUp j

/-! ### Sizes and constants -/

/-- The 256 KiB of the staging buffer. -/
def stagingBytes : Nat := 262144

/-- The first message identifier, the number of entries, and where visitors' numbers begin. -/
def msgBase : Nat := 0x440
def nEntries : Nat := 131072

/-- GLB_ID (00 Table 00-4). -/
def glbId : Word := word [(16, 0x0E27), (4, 0), (4, 1), (12, 0xAC5), (4, 1)]

/-- Whether event e is a wired line's (02 R19). -/
def isWired (e : Nat) : Bool := 0x40 ≤ e && e < 0x440

end Sys2Proof.Machine
end

