-- ==== Sys2Proof/Machine/Entry.lean ====
section
/-! DEFINITION. The lodging entry: the bank scramble, its two window words, the setups it refuses, and when it is dispatchable
(02, 05). -/
namespace Sys2Proof.Machine

/-! ### The bank scramble (02 R36) -/

/-- Round i of the scramble on v under seed S. -/
def scrambleRound (seed : BitVec 128) (i : Nat) (v : Nat) : Nat :=
  let k := (seed.extractLsb' (17 * i) 17).toNat
  let x := v % 256
  let y := v / 256
  let f := (((x ^^^ (k % 256)) * 0xB5) + k / 256) % 512
  x * 512 + (y ^^^ f)

/-- The scrambled identifier v of event e. -/
def scramble (seed : BitVec 128) (e : Nat) : Nat := (List.range 7).foldl (fun v i => scrambleRound seed i v) e

/-- The lodging bank of event e. -/
def State.bank (s : State) (e : Nat) : Nat := scramble s.lt.seed e / 4096

/-! ### Entry words (02 Table 02-5) -/

/-- State codes (02 Table 02-6). -/
def EvState.code : EvState → Nat
  | .idle => 0 | .posted => 1 | .queued => 2 | .offered => 3 | .claimed => 4 | .claimedRepost => 5 | .heldJoin => 6
  | .heldTwokey => 7 | .heldCurfew => 8 | .parked => 9 | .faulted => 10

/-- The state of a code; codes 11 to 15 are reserved. -/
def EvState.ofCode : Nat → Option EvState
  | 0 => some .idle | 1 => some .posted | 2 => some .queued | 3 => some .offered | 4 => some .claimed
  | 5 => some .claimedRepost | 6 => some .heldJoin | 7 => some .heldTwokey | 8 => some .heldCurfew | 9 => some .parked
  | 10 => some .faulted | _ => none

/-- Entry bits [11:0]. -/
def Entry.low (e : Entry) : BitVec 12 :=
  BitVec.ofNat 12 (pack [(4, e.state.code), (1, b2n e.mask), (1, b2n e.level), (1, b2n e.sensitive), (1, b2n e.direct),
    (1, b2n e.coalesce), (1, b2n e.activeLow), (1, b2n e.ctxv), (1, b2n e.run)])

/-- Word 0 of an entry. -/
def Entry.word0 (e : Entry) : Word :=
  word [(12, e.low.toNat), (12, e.priority.toNat), (10, e.target.toNat), (2, e.tmode.toNat), (10, e.function.toNat),
    (12, e.context.toNat), (3, e.cls.toNat)]

/-- Word 1 of an entry. -/
def Entry.word1 (e : Entry) : Word :=
  word [(36, e.payload.toNat), (12, e.entryPc.toNat), (12, e.version.toNat), (4, e.merges.toNat)]

/-- The flags that bits [10:4] of v carry, written over e's. -/
def Entry.withFlags (e : Entry) (v : BitVec 12) : Entry :=
  { e with
    mask := bit v 4, level := bit v 5, sensitive := bit v 6, direct := bit v 7, coalesce := bit v 8,
    activeLow := bit v 9, ctxv := bit v 10 }

/-- An entry from its two words, state st. -/
def entryOfWords (st : EvState) (w0 w1 : Word) : Entry :=
  { (Entry.withFlags {} (fld w0 0 12)) with
    state := st, run := bit w0 11, priority := fld w0 12 12, target := fld w0 24 10, tmode := fld w0 34 2,
    function := fld w0 36 10, context := fld w0 46 12, cls := fld w0 58 3, payload := fld w1 0 36, entryPc := fld w1 36 12,
    version := fld w1 48 12, merges := fld w1 60 4 }

/-- The lowest code of Table 02-11 for which R34 refuses the setup e, if any. -/
def State.setupFault (s : State) (e : Entry) : Option (BitVec 4) :=
  if e.direct && e.sensitive then some 3
  else if e.direct && (e.tmode = 2 || e.tmode = 3) then some 4
  else if e.direct && e.priority = 0 then some 5
  else if e.tmode = 0 && !s.ownIndex (fld e.target 8 2) then some 6
  else if e.tmode = 3 && s.ownIndex (fld e.target 8 2) then some 7
  else if e.tmode = 2 && bit e.target 9 then some 9
  else none

/-- The state LODGE takes e to (02 R39). -/
def Entry.lodged (e : Entry) : EvState :=
  if e.sensitive then .heldCurfew else if e.direct && !e.mask then .queued else .posted

/-- In ranking: QUEUED or OFFERED. -/
def EvState.ranked (st : EvState) : Bool := st = .queued || st = .offered

/-- Held by a target: CLAIMED or CLAIMED_REPOST. -/
def EvState.taken (st : EvState) : Bool := st = .claimed || st = .claimedRepost

/-- Entry e is dispatchable (05 R104). -/
def State.dispatchable (s : State) (e : Nat) : Bool :=
  let x := s.entry e
  x.state = .posted && !x.mask && !x.direct && !x.run && !(s.side e).trapped

/-- The function that owns event e (09 R214): its range's, else 0. -/
def State.ownerOf (s : State) (e : Nat) : BitVec 10 :=
  match s.fm.fns.find? fun p => p.2.state ≠ .absent && msgBase + 256 * p.2.lodgBase.toNat ≤ e &&
      e < msgBase + 256 * (p.2.lodgBase.toNat + p.2.lodgN.toNat) with
  | some p => BitVec.ofNat 10 p.1
  | none => 0

/-- The function that owns context c (09 R214). -/
def State.ctxOwnerOf (s : State) (c : Nat) : BitVec 10 :=
  match s.fm.fns.find? fun p => p.2.state ≠ .absent && 16 * p.2.ledgBase.toNat ≤ c &&
      c < 16 * (p.2.ledgBase.toNat + p.2.ledgN.toNat) with
  | some p => BitVec.ofNat 10 p.1
  | none => 0

/-- Keep bank lists and wait lists right for entry e, which was dispatchable or not before a change (05 R104, 09 R228). -/
def State.dispUpkeep (s : State) (was : Bool) (e : Nat) : State :=
  match was, s.dispatchable e with
  | false, true => s.modDlist (s.bank e) (· ++ [e])
  | true, false =>
    let f := (s.entry e).function.toNat
    (s.modDlist (s.bank e) (·.filter (· ≠ e))).modFn f fun x => { x with waitList := x.waitList.filter (· ≠ e) }
  | _, _ => s

/-- The postings that entry e holds settle (08 R199). -/
def State.settlePostings (s : State) (e : Nat) : State :=
  { s with mi.postings := s.mi.postings.filter fun p => p.event ≠ some e }

/-- Set or clear TRAPPED of entry e: no stimulus (05 R107, R121). A set settles its postings. -/
def State.setTrapped (s : State) (e : Nat) (v : Bool) : State :=
  let was := s.dispatchable e
  let s := s.modSide e fun x => { x with trapped := v }
  let s := if v then s.settlePostings e else
    { s with lt.stepTraps := s.lt.stepTraps.filter (fun r => r.event.toNat ≠ e),
             lt.itinTraps := s.lt.itinTraps.filter (fun r => r.event.toNat ≠ e) }
  s.dispUpkeep was e

/-- The entry of a run clears RUN without a stimulus (05 R107). -/
def State.clearRun (s : State) (e : Nat) : State :=
  let was := s.dispatchable e
  let x := s.entry e
  (s.setEntry e { x with run := false, version := x.version + 1 }).dispUpkeep was e

/-- Set RUN: the dispatch read's group (05 R106). -/
def State.setRunBit (s : State) (e : Nat) : State :=
  let was := s.dispatchable e
  let x := s.entry e
  (s.setEntry e { x with run := true, version := x.version + 1 }).dispUpkeep was e

end Sys2Proof.Machine
end

