-- ==== Sys2Proof/Machine/Guest.lean ====
section
/-! DEFINITION. The guest book: records, their ring, and lost records (15 R332 to R334). -/
namespace Sys2Proof.Machine

/-- Records in the ring and not yet read. -/
def State.gbUnread (s : State) : Nat := (s.gb.prod - s.gb.cons).toNat

/-- A migration holds the staging buffer (09 R230). -/
def State.gbSuspended (s : State) : Bool := s.fm.mig.isSome

/-- Write bytes into the staging buffer from offset o. -/
def State.putBytes (s : State) (o : Nat) (bs : List Byte) : State :=
  { s with gb.buffer := (bs.zipIdx).foldl (fun t p => tset 0 t (o + p.2) p.1) s.gb.buffer }

/-- Bytes of the staging buffer. -/
def State.getBytes (s : State) (o n : Nat) : List Byte := (List.range n).map fun i => tget 0 s.gb.buffer (o + i)

/-- n more records are lost, and the GAP that stands for all that are has CAUSE why (15 R334). -/
def State.gbLose (s : State) (n : Nat) (why : BitVec 2) : State :=
  if n = 0 && s.gb.pending = 0 then s else
  { s with gb.pendWhy := why, gb.pending := satAdd s.gb.pending n, gb.lostCnt := satAdd s.gb.lostCnt n }

/-- Write one 128-bit record where the ring has room. -/
def State.gbRaw (s : State) (rec : Nat) : State :=
  if 16384 ≤ s.gbUnread then s.gbLose 1 0
  else { s.putBytes (16 * (s.gb.prod.toNat % 16384)) (leBytes 16 rec) with
         gb.prod := s.gb.prod + 1, gb.written := satInc s.gb.written }

/-- The fields that every record begins with (15 R333). -/
def State.gbHead (s : State) (kind event : Nat) : List (Nat × Nat) := [(4, kind), (32, s.now.toNat), (17, event)]

/-- The GAP record that stands for the lost records, with CAUSE why, and the GB_GAP post it owes. -/
def State.gbGapRec (s : State) (why : BitVec 2) : State :=
  let r := pack (s.gbHead 3 0 ++ [(16, s.gb.pending.toNat), (2, why.toNat)])
  let n := s.gb.pending
  { s with gb.pending := 0, gb.pendWhy := 0, gb.gapDue := some n }.gbRaw r

/-- The GAP record is written where records were lost and it finds room. -/
def State.gbGap (s : State) : State :=
  if s.gb.pending = 0 ∨ 16384 ≤ s.gbUnread then s else s.gbGapRec s.gb.pendWhy

/-- The TIME record that must come first (15 R334). -/
def State.gbTime (s : State) : State :=
  if s.gb.lastTime = some (fld s.now 32 16) ∨ 16384 ≤ s.gbUnread then s
  else { s with gb.lastTime := some (fld s.now 32 16) }.gbRaw (pack (s.gbHead 4 0 ++ [(48, s.now.toNat)]))

/-- Write a record, or count it lost (15 R332, R334). -/
def State.gbPut (s : State) (rec : Nat) : State :=
  if !s.gb.enable then s
  else if s.gbSuspended then s.gbLose 1 1
  else if 16384 ≤ s.gbUnread then s.gbLose 1 0
  else (s.gbTime.gbGap).gbRaw rec

/-- Whether event e is traced. -/
def State.gbTraces (s : State) (e : Nat) : Bool :=
  s.gb.enable && s.gb.stateEn && (List.range 8).any fun k =>
    let r := s.gbRange k
    r.en && r.lo.toNat ≤ e && e ≤ r.hi.toNat

/-- The STATE record of a stimulus (15 Table 15-6). -/
def State.gbState (s : State) (e : Nat) (old new : Entry) (stim tgt : Nat) : State :=
  if s.gbTraces e then
    s.gbPut (pack (s.gbHead 2 e ++ [(4, old.state.code), (4, new.state.code), (5, stim), (12, new.version.toNat),
      (10, new.function.toNat), (8, tgt)]))
  else s

end Sys2Proof.Machine
end

