-- ==== Sys2Proof/Machine/Noise.lean ====
section
/-! DEFINITION. The curfew unit's hold words, release instants and draws on the jitter pool (08 R204 to R208). -/
namespace Sys2Proof.Machine

/-- Jitter bits in the pool. -/
def State.poolBits (s : State) : Nat := 32 * s.cf.pool.length - s.cf.used

/-- Use n bits of the pool, each once (08 Noise). -/
def State.useBits (s : State) (n : Nat) : State :=
  { s with cf.pool := s.cf.pool.drop ((s.cf.used + n) / 32), cf.used := (s.cf.used + n) % 32, free := s.free + 1 }

/-- G of R204: the first grid instant at or after p + MIN_HOLD. -/
def CurfewClass.grid (c : CurfewClass) (p : Instant) : Nat :=
  let q := 2 ^ c.qlog.toNat
  (p.toNat + c.minHold.toNat + q - 1) / q * q

/-- The CONSTANT release instant (08 R204). -/
def CurfewClass.constant (c : CurfewClass) (p : Instant) : Instant :=
  BitVec.ofNat 48 (c.grid p + (2 ^ c.jbits.toNat - 1) * c.jstep.toNat)

/-- The release instant of a hold word (08 R204, R208). -/
def State.releaseAt (s : State) (h : Hold) : Instant :=
  let c := s.crfClass h.cls.toNat
  if h.mark || c.mode = 2 then c.constant h.p
  else if c.mode = 1 then BitVec.ofNat 48 (c.grid h.p + (h.j.getD 0).toNat * c.jstep.toNat)
  else h.p

/-- Enter the curfew unit: record p and draw J by the class (08 R204, R208). -/
def State.curfewEnter (s : State) (e : Nat) (cls : BitVec 3) : State :=
  let c := s.crfClass cls.toNat
  let h : Hold := { event := e, p := s.now, j := none, mark := s.fallback, cls := cls, order := s.cf.nextOrd }
  let s := { s with cf.nextOrd := s.cf.nextOrd + 1 }
  if s.fallback || c.mode ≠ 1 then { s with cf.holds := s.cf.holds ++ [h] }
  else if s.poolBits < c.jbits.toNat || s.poolBits = 0 then
    { s with cf.holds := s.cf.holds ++ [{ h with mark := true }], cf.drawEmpty := satInc s.cf.drawEmpty }
  else
    let j := (Config.jitterBits s.free).toNat % 2 ^ c.jbits.toNat
    { s.useBits c.jbits.toNat with cf.holds := s.cf.holds ++ [{ h with j := some (BitVec.ofNat 8 j) }] }

/-- Leave the curfew unit (08 R206). -/
def State.curfewLeave (s : State) (e : Nat) : State := { s with cf.holds := s.cf.holds.filter fun h => h.event ≠ e }

/-- The hold word of entry e. -/
def State.holdOf (s : State) (e : Nat) : Option Hold := s.cf.holds.find? fun h => h.event = e

end Sys2Proof.Machine
end

