-- ==== Sys2Proof/Machine/Slots.lean ====
section
/-! DEFINITION. The slots of remote delivery and pair mode and the queues they wait in for a flit (12 Table 12-1). -/
namespace Sys2Proof.Machine

/-- A slot from its fields, least significant first. -/
def slot (fs : List (Nat × Nat)) : BitVec 128 := BitVec.ofNat 128 (pack fs)

/-- The field of w bits at byte b of a slot. -/
def sfld (x : BitVec 128) (b w : Nat) : BitVec w := x.extractLsb' (8 * b) w

def slotPlace (room : Nat) (ev t : Nat) (pri payload : Nat) (mask : Bool) : BitVec 128 :=
  slot [(8, 1), (8, 0), (16, room), (24, ev), (8, t), (16, pri), (40, payload), (8, b2n mask)]
def slotUpdate (room pri payload ucount : Nat) (mask hasPayload : Bool) : BitVec 128 :=
  slot [(8, 2), (8, 0), (16, room), (16, pri), (40, payload), (4, ucount), (1, b2n mask), (1, b2n hasPayload)]
def slotRecall (room : Nat) : BitVec 128 := slot [(8, 3), (8, 0), (16, room)]
def slotReport (room ev st ucount : Nat) : BitVec 128 := slot [(8, 4), (8, 0), (16, room), (24, ev), (8, st), (4, ucount)]
def slotMirror (kind seq item low : Nat) : BitVec 128 := slot [(8, 5), (8, kind), (16, seq), (32, item), (64, low)]
def slotMirrorEnd (seq count : Nat) : BitVec 128 := slot [(8, 6), (8, 0), (16, seq), (16, count)]
def slotGrant (n : Nat) : BitVec 128 := slot [(8, 0x11), (8, 0), (16, n)]
def slotReturn (rooms : List Nat) : BitVec 128 := slot ([(8, 0x12), (8, rooms.length), (16, 0)] ++ rooms.map fun r => (16, r))
def slotMirrorAck (seq freed : Nat) : BitVec 128 := slot [(8, 0x13), (8, 0), (16, seq), (16, freed)]

/-- The port that CUR_ROUTE names for peer block b, if valid (12 R278). -/
def State.route (s : State) (b : Nat) : Option Nat :=
  if b = s.gl.index.toNat then none
  else if bit s.cu.route (3 * b + 2) then some (fld s.cu.route (3 * b) 2).toNat else none

/-- Forget the locks and ready bits of an earlier exchange of training blocks (11 R271, R273). -/
def Port.retrainLanes (p : Port) : Port :=
  { p with
    peerReady := false, ready := false, readyOut := false,
    lanes := tmap {} p.lanes fun _ l => { l with locked := false, lockRun := 0 } }

/-- Assert CURn_WAKE towards the peer at time t and leave PARK for RETRAIN, or for DETECT if the settings were lost (11 R274, 16 R356). -/
def Port.unparked (p : Port) (t : Word) : Port :=
  { p.retrainLanes with
    wakeOut := some t, parkAsked := false, parkOwed := none, parkSeq := none,
    state := if p.kept then .retrain else .detect, retrains := if p.kept then satInc p.retrains else p.retrains }

/-- Port n leaves PARK, if the block is awake. -/
def State.unpark (s : State) (n : Nat) : State :=
  if (s.port n).state = .park && s.awake then s.modPort n fun p => p.unparked s.gl.time else s

/-- Queue a REQ slot at port n. -/
def State.queueReq (s : State) (n : Nat) (x : BitVec 128) : State :=
  (s.modPort n fun p => { p with reqQ := p.reqQ ++ [x] }).unpark n

/-- Queue an RSP slot at port n. -/
def State.queueRsp (s : State) (n : Nat) (x : BitVec 128) : State :=
  (s.modPort n fun p => { p with rspQ := p.rspQ ++ [x] }).unpark n

/-- Queue a REQ slot to peer block b by its route. -/
def State.sendReq (s : State) (b : Nat) (x : BitVec 128) : State :=
  match s.route b with | some n => s.queueReq n x | none => s

/-- Queue an RSP slot to peer block b by its route. -/
def State.sendRsp (s : State) (b : Nat) (x : BitVec 128) : State :=
  match s.route b with | some n => s.queueRsp n x | none => s

/-- The link to peer block b is ACTIVE (12 R278). -/
def State.linkUp (s : State) (b : Nat) : Bool :=
  match s.route b with | some n => (s.port n).state = .active | none => false

/-- Entry e is away from home: the PLACE of its room has been sent (12 R282, R285). -/
def State.isAway (s : State) (e : Nat) : Bool :=
  match (s.side e).room with
  | some (b, rm) => (match tget none (s.peer b.toNat).rooms rm.toNat with | some r => r.sent | none => false)
  | none => false

/-- Entry e gives up its room: a RECALL removes the visitor; a room that no PLACE has named is free again (12 R285). -/
def State.giveBack (s : State) (e : Nat) : State :=
  match (s.side e).room with
  | some (b, rm) =>
    if s.isAway e then s.sendReq b.toNat (slotRecall rm.toNat)
    else s.modPeer b.toNat fun p => { p with rooms := tset none p.rooms rm.toNat none }
  | none => s

/-- Send the home block's UPDATE of an entry that is away (12 R285). -/
def State.sendUpdate (s : State) (e : Nat) (withPayload : Bool) : State :=
  match (s.side e).room with
  | some (b, rm) =>
    let x := s.entry e
    s.sendReq b.toNat (slotUpdate rm.toNat x.priority.toNat (if withPayload then x.payload.toNat else 0)
      (s.side e).ucount.toNat x.mask withPayload)
  | none => s

/-- The pending report of a visitor, replacing an unsent one (12 R284). -/
def State.report (s : State) (v : Visitor) (st : Nat) : State :=
  let s := s.modPeer v.home.toNat fun p =>
    { p with
      reports := tset none p.reports v.room.toNat (some (slotReport v.room.toNat v.event.toNat st v.ucount.toNat)) }
  match s.route v.home.toNat with | some n => s.unpark n | none => s

end Sys2Proof.Machine
end

