-- ==== Sys2Proof/Machine/Change.lean ====
section
/-! DEFINITION. The one operation that changes a lodging entry, with every record kept beside it (02 R33, R38 to R42). -/
namespace Sys2Proof.Machine

/-- The stimuli of Table 02-7 in its row order (15 Table 15-6). -/
inductive Stim where
  | post | cancel | maskSet | maskClear | flr | uncorrectable | window | offer | park | consume | gate | offered | claim
  | complete | reoffer | release | unhold | curfew | setup
deriving DecidableEq, Repr

/-- The number of a stimulus. -/
def Stim.code : Stim → Nat
  | .post => 0 | .cancel => 1 | .maskSet => 2 | .maskClear => 3 | .flr => 4 | .uncorrectable => 5 | .window => 6 | .offer => 7
  | .park => 8 | .consume => 9 | .gate => 10 | .offered => 11 | .claim => 12 | .complete => 13 | .reoffer => 14
  | .release => 15 | .unhold => 16 | .curfew => 17 | .setup => 18

/-- Take candidate c out of target t's front row, band lists and offer (03 R53). -/
def State.leaveRank (s : State) (t c : Nat) : State :=
  s.modTarget t fun g =>
    { g with front := g.front.filter (· ≠ c), bands := tmap [] g.bands (fun _ l => l.filter (· ≠ c)),
             offered := if g.offered = some c then none else g.offered }

/-- Entry e leaves ranking: its place, its orphan list, its held placement. -/
def State.unrank (s : State) (e : Nat) : State :=
  let d := s.side e
  let s := match d.placed with | some t => s.leaveRank t.toNat e | none => s
  let s := match d.orphan with
    | some g => s.modGroup g.toNat fun x => { x with orphans := x.orphans.filter (· ≠ e) }
    | none => s
  let s := { s with rn.heldPl := s.rn.heldPl.filter fun h => h.event ≠ e }
  let s := { s with cu.peers := tmap {} s.cu.peers fun _ p => { p with waiting := p.waiting.filter (· ≠ e) } }
  s.modSide e fun x => { x with placed := none, orphan := none }

/-- Entry e leaves its holder (03 R48). -/
def State.unhold (s : State) (e : Nat) : State :=
  match (s.side e).holder with
  | some t => (s.modTarget t.toNat fun g => { g with held := g.held.filter fun h => h.cand ≠ e }).modSide e
      fun x => { x with holder := none }
  | none => s

/-- The wired front end's copy of an entry's mode (02 R21). -/
def State.wireCopy (s : State) (e : Nat) (x : Entry) : State :=
  if isWired e then
    { s with wf.level := setBit s.wf.level (e - 0x40) x.level, wf.activeLow := setBit s.wf.activeLow (e - 0x40) x.activeLow }
  else s

/-- What a change does to an entry's room at a peer (12 R285): a recall, or the change sent on. Before its PLACE has been sent the entry is
not yet away: the room is free again, or the PLACE carries the change. -/
def State.awayNote (s : State) (stim : Option Stim) (e : Nat) (old new : Entry) : State :=
  match (s.side e).room with
  | none => s
  | some _ =>
    if new.state = .faulted || (new.state = .idle && (stim = some .cancel || stim = some .flr)) then
      (s.giveBack e).modSide e fun x => { x with room := none }
    else if s.isAway e && (new.priority ≠ old.priority || new.mask ≠ old.mask) then s.sendUpdate e false
    else s

/-- Install entry e's new content in one access group: VERSION advances (an entry lost to an error restarts at 0), RUN does not
outlive POSTED, MERGES does not outlive the posting, and everything kept beside the entry follows the state. -/
def State.putEntry (s : State) (stim : Option Stim) (tgt : Nat) (e : Nat) (x : Entry) : State :=
  let old := s.entry e
  let was := s.dispatchable e
  let new := { x with
    version := if stim = some .uncorrectable then 0 else old.version + 1,
    run := x.run && x.state = .posted,
    merges := if x.state = .idle then 0 else x.merges }
  let s := s.setEntry e new
  let s := if new.state ≠ .posted && (s.side e).trapped then s.setTrapped e false else s
  let s := s.dispUpkeep was e
  let s := if new.state ≠ .posted || new.mask then s.settlePostings e else s
  let s := if !new.state.ranked then s.unrank e else s
  let s := if old.state = .offered && new.state = .queued then
      (match (s.side e).placed with
       | some t => s.modTarget t.toNat fun g => { g with offered := if g.offered = some e then none else g.offered }
       | none => s) else s
  let s := if !new.state.taken then s.unhold e else s
  let s := if old.state = .heldCurfew && new.state ≠ .heldCurfew then s.curfewLeave e else s
  let s := if old.state ≠ .heldCurfew && new.state = .heldCurfew then s.curfewEnter e new.cls else s
  let s := s.wireCopy e new
  let s := s.awayNote stim e old new
  let s := if new.state = .idle || new.state = .posted || new.state = .heldCurfew then
      s.modSide e fun d => { d with replaced := false } else s
  match stim with
  | some st => s.gbState e old new st.code tgt
  | none => s

end Sys2Proof.Machine
end

