-- ==== Sys2Proof/Machine/Rank.lean ====
section
/-! DEFINITION. Ranking: candidates, group choice, placement, the front row and band lists, and settling an offer (03). -/
namespace Sys2Proof.Machine

/-- Candidates numbered from nEntries are visitors: nEntries + 4096 x home + room. -/
def visCand (home room : Nat) : Nat := nEntries + 4096 * home + room

def State.vis (s : State) (c : Nat) : Option Visitor := s.visitor (c - nEntries)

/-- The priority of a candidate. -/
def State.candPri (s : State) (c : Nat) : Nat :=
  if c < nEntries then (s.entry c).priority.toNat else match s.vis c with | some v => v.priority.toNat | none => 0

/-- MASK of a candidate. -/
def State.candMask (s : State) (c : Nat) : Bool :=
  if c < nEntries then (s.entry c).mask else match s.vis c with | some v => v.mask | none => true

/-- The entry order of a candidate (03 R54). -/
def State.candOrder (s : State) (c : Nat) : Nat := tget 0 s.rn.orders c

/-- Candidate a comes before b by the ranking key (03 R53). -/
def State.before (s : State) (a b : Nat) : Bool :=
  s.candPri b < s.candPri a || (s.candPri a = s.candPri b && s.candOrder a < s.candOrder b)

/-- Target t may be offered events: TGT_CFG.ENABLE, or a delivery agent serves it (15 R330). -/
def State.enabled (s : State) (t : Nat) : Bool :=
  (s.target t).enable || (List.range 2).any fun k => (s.dloop k).en && (s.dloop k).target.toNat = t

/-- The held count is at or above a non-zero limit (03 R67). -/
def State.full (s : State) (t : Nat) : Bool :=
  let g := s.target t
  g.holdLimit ≠ 0 && g.holdLimit.toNat ≤ g.held.length

/-- Candidate c is eligible for offer at t (03 R47). -/
def State.eligible (s : State) (t c : Nat) : Bool :=
  !s.candMask c && (s.target t).threshold.toNat < s.candPri c && s.enabled t && !s.full t

/-- The first eligible candidate of t's front row (03 R57, R58). -/
def State.first (s : State) (t : Nat) : Option Nat := (s.target t).front.find? fun c => s.eligible t c

/-- The number of t's candidates. -/
def Target.count (g : Target) : Nat := g.front.length + (g.bands.map fun p => p.2.length).sum

/-- Put c into t's front row at its place by the ranking key. -/
def State.frontInsert (s : State) (t c : Nat) : State :=
  s.modTarget t fun g => { g with front := insertBy s.before c g.front }

/-- The highest non-empty band of t. -/
def Target.topBand (g : Target) : Option (Nat × List Nat) := g.bands.getLast?

/-- Promote the head of the highest non-empty band list while the front row has room (03 R56). -/
def State.promoteOne (s : State) (t : Nat) : State :=
  let g := s.target t
  if 32 ≤ g.front.length then s else
  match g.topBand with
  | some (b, c :: cs) => (s.modTarget t fun g => { g with bands := tset [] g.bands b cs }).frontInsert t c
  | _ => s

/-- Promotion until the front row is full or every band list is empty (03 R56). -/
def State.fillFront (s : State) (t : Nat) : State :=
  if (s.target t).bands = [] then s else iter (fun s => s.promoteOne t) 32 s

/-- R55 for candidate c at target t. -/
def State.rankInsert (s : State) (t c : Nat) : State :=
  let g := s.target t
  let toBand (s : State) (c : Nat) (head : Bool) : State :=
    s.modTarget t fun g => { g with bands := tmod [] g.bands (s.candPri c / 64) fun l => if head then c :: l else l ++ [c] }
  if g.front.length < 32 then s.frontInsert t c
  else match g.front.getLast? with
    | some l =>
      if s.candPri l < s.candPri c then
        toBand ((s.modTarget t fun g => { g with front := g.front.dropLast }).frontInsert t c) l true
      else toBand s c false
    | none => s.frontInsert t c

/-- The Offer stimulus to candidate c at target t (03 R59). -/
def State.offerTo (s : State) (t c : Nat) : State :=
  let s := s.modTarget t fun g => { g with offered := some c, offerAt := s.gl.time, offerLim := g.offerTmo }
  if c < nEntries then s.putEntry (some .offered) t c { s.entry c with state := .offered }
  else match s.vis c with
    | some v => (s.setVisitor (c - nEntries) (some { v with state := .offered })).report v 1
    | none => s

/-- The Re-offer stimulus that ends an offer early: back to QUEUED in its place (03 R60). -/
def State.withdraw (s : State) (t c : Nat) : State :=
  let s := s.modTarget t fun g => { g with offered := none }
  if c < nEntries then s.putEntry (some .reoffer) t c { s.entry c with state := .queued }
  else match s.vis c with
    | some v => (s.setVisitor (c - nEntries) (some { v with state := .queued })).report v 3
    | none => s

/-- Candidate c is inside another step's access group. -/
def State.candBusy (s : State) (c : Nat) : Bool := c < nEntries && s.busy c

/-- The offer of target t waits to be settled until another step's group ends (05 R116). -/
def State.oweSettle (s : State) (t : Nat) : State :=
  if s.rn.unsettled.contains t then s else { s with rn.unsettled := s.rn.unsettled ++ [t] }

/-- The candidate that target t offers or would offer is inside another step's group. -/
def State.settleWaits (s : State) (t : Nat) : Bool :=
  (match (s.target t).offered with | some o => s.candBusy o | none => false) ||
    (match s.first t with | some c => s.candBusy c | none => false)

/-- Count a displacement (03 R60). -/
def State.countDisplace (s : State) : State := { s with rn.displace := satInc s.rn.displace }

/-- The offer that R57 to R60 and R67 require at target t is made. -/
def State.reofferAt (s : State) (t : Nat) : State :=
  match (s.target t).offered with
  | none => match s.first t with
    | some c => s.offerTo t c
    | none => s
  | some o =>
    if !s.enabled t then (s.withdraw t o).countDisplace
    else if s.full t then s
    else match s.first t with
      | some c => if c = o then s else ((s.withdraw t o).offerTo t c).countDisplace
      | none => (s.withdraw t o).countDisplace

/-- Settle the offer at target t: promotion, then the offer that is required; a change that would touch an entry inside another step's
access group waits until that has ended (05 R116). -/
def State.settle (s : State) (t : Nat) : State :=
  let s := s.fillFront t
  if s.settleWaits t then s.oweSettle t else s.reofferAt t

/-- Settle the offer at a target, if one is named. -/
def State.settleO (s : State) (t : Option (BitVec 8)) : State := match t with | some t => s.settle t.toNat | none => s

/-- Place candidate c at target t with a new entry order (03 R54, R55). -/
def State.placeAt (s : State) (t c : Nat) : State :=
  let s := { s with rn.orders := tset 0 s.rn.orders c s.rn.nextOrd, rn.nextOrd := s.rn.nextOrd + 1 }
  let s := if c < nEntries then s.modSide c fun d => { d with placed := some (BitVec.ofNat 8 t), orphan := none } else s
  (s.rankInsert t c).settle t

/-- Handle a candidate whose priority changed from old (03 R74, 07 R177). -/
def State.rerank (s : State) (t c old : Nat) : State :=
  let g := s.target t
  if old ≤ s.candPri c && g.front.contains c then
    ((s.modTarget t fun g => { g with front := g.front.filter (· ≠ c) }).frontInsert t c).settle t
  else
    let s := s.modTarget t fun g =>
      { g with front := g.front.filter (· ≠ c), bands := tmap [] g.bands (fun _ l => l.filter (· ≠ c)) }
    let s := if s.candPri c < old then s.fillFront t else s
    (s.rankInsert t c).settle t

/-! ### Group choice (03 R50, Table 03-1) -/

/-- The members of group g that may be chosen, ascending; away is excluded while another may be chosen. -/
def State.members (s : State) (g : Nat) (away : Option Nat) : List Nat :=
  let m := (List.range 256).filter fun t => bit (s.group g).mask t && s.enabled t
  let m' := m.filter fun t => away ≠ some t
  if m'.isEmpty then m else m'

/-- Distance of member t after LAST in the ROTATE order. -/
def rotateDist (last t : Nat) : Nat := (t + 511 - last) % 256

/-- The least element by a measure; the first among equals. -/
def leastBy (f : Nat → Nat) : List Nat → Option Nat
  | [] => none
  | a :: l => match leastBy f l with
    | some b => if f b < f a then some b else some a
    | none => some a

/-- The member that group choice selects for an event of payload p. -/
def State.choose (s : State) (g : Nat) (p : BitVec 36) (away : Option Nat) : Option Nat :=
  let x := s.group g
  let m := s.members g away
  let last := x.last.toNat
  if x.policy = 0 then leastBy (rotateDist last) m
  else if x.policy = 1 then
    leastBy (fun t => 256 * ((s.target t).count + (s.target t).held.length) + rotateDist last t) m
  else
    m[((fld p 0 12) ^^^ (fld p 12 12) ^^^ (fld p 24 12)).toNat % m.length]?

/-! ### Placement (03 R49, 04 R90, 12 R282) -/

/-- Rooms that may still be reserved at peer b: the lowest free number (12 R279). -/
def State.freeRoom (s : State) (b : Nat) : Option Nat :=
  let p := s.peer b
  let inUse (n : Nat) : Bool := (tget none p.rooms n).isSome || p.reserved.contains (BitVec.ofNat 12 n)
  let held := p.rooms.length + p.reserved.length
  if p.granted.toNat ≤ held then none else (List.range p.granted.toNat).find? fun n => !inUse n

/-- Send entry e away to room rm of block b (12 R282). -/
def State.sendPlace (s : State) (e b rm : Nat) : State :=
  let x := s.entry e
  let s := s.modPeer b fun p => { p with rooms := tset none p.rooms rm (some ⟨e, false, false, true⟩) }
  let s := s.modSide e fun d => { d with room := some (BitVec.ofNat 2 b, BitVec.ofNat 12 rm), ucount := 0, acked := 0 }
  s.sendReq b (slotPlace rm e x.target.toNat x.priority.toNat x.payload.toNat x.mask)

/-- Send the entries that wait for rooms at block b, in entry order, as rooms allow (12 R286). -/
def State.sendWaiting (s : State) (b : Nat) : State :=
  if !s.linkUp b then s else
  (sortBy (fun a c => s.candOrder a < s.candOrder c) (s.peer b).waiting).foldl (fun s e =>
    match s.freeRoom b with
    | some rm => (s.modPeer b fun p => { p with waiting := p.waiting.filter (· ≠ e) }).sendPlace e b rm
    | none => s) s

/-- Entries that wait for rooms are sent wherever rooms have come free. -/
def State.sendDue (s : State) : State :=
  (List.range 4).foldl (fun s b => if (s.peer b).waiting = [] then s else s.sendWaiting b) s

/-- Raise a placed event to the floor of its OPEN context (04 R90). -/
def State.floorRaise (s : State) (e : Nat) : State :=
  let x := s.entry e
  let c := s.ctx x.context.toNat
  if x.ctxv && c.state = .opened && x.priority < c.floor then s.putEntry none 0 e { x with priority := c.floor } else s

/-- Place event e, with the target that an offer timeout excludes (03 R49 to R51). -/
def State.place (s : State) (e : Nat) (away : Option Nat) : State :=
  let s := s.floorRaise e
  let x := s.entry e
  let b := (fld x.target 8 2).toNat
  if x.tmode = 0 || (x.tmode = 3 && s.ownIndex (fld x.target 8 2)) then s.placeAt (x.target.toNat % 256) e
  else if x.tmode = 1 then
    let g := x.target.toNat % 256
    match s.choose g x.payload away with
    | some t => (s.modGroup g fun y => { y with last := BitVec.ofNat 8 t }).placeAt t e
    | none => (s.modGroup g fun y => { y with orphans := y.orphans ++ [e] }).modSide e
        fun d => { d with orphan := some (BitVec.ofNat 8 g), placed := none }
  else if x.tmode = 3 then
    let s := { s with rn.orders := tset 0 s.rn.orders e s.rn.nextOrd, rn.nextOrd := s.rn.nextOrd + 1 }
    match (s.side e).room with
    | some (bb, rm) => s.sendPlace e bb.toNat rm.toNat
    | none => s.modPeer b fun p => { p with waiting := p.waiting ++ [e] }
  else s

/-- Place the orphans of group g, oldest first, while a member may be chosen (03 R51). -/
def State.placeOrphans (s : State) (g : Nat) : State :=
  if (s.members g none).isEmpty then s else
  let o := (s.group g).orphans
  o.foldl (fun s e => s.place e none) (s.modGroup g fun y => { y with orphans := [] })

/-! ### Source order (08 R199) -/

/-- A posting of source src with a stamp below n has not settled: it waits on an entry, or its fence is held. -/
def State.unsettledBefore (s : State) (src : Source) (n : Nat) : Bool :=
  (s.mi.postings.any fun p => p.src = src && p.stamp < n) ||
  (match src with
   | .function f => s.mi.fences.any fun h => h.fn = f && h.stamp < n
   | .channel _ => false)

/-- The least stamp of source src among a placement's requirements. -/
def stampIn (src : Source) (reqs : List (Source × Nat)) : Nat :=
  ((reqs.filter fun r => r.1 = src).map (·.2)).foldl min (2 ^ 64)

/-- Placement a comes before b in stamp order at a source they share, or equal to it where `orEqual` is set (08 R199). -/
def stampBefore (orEqual : Bool) (a b : List (Source × Nat)) : Bool :=
  a.any fun x => b.any fun y => x.1 = y.1 &&
    (stampIn x.1 a < stampIn x.1 b || (orEqual && stampIn x.1 a = stampIn x.1 b))

/-- A placement with these requirements must be held: a posting of a source of its own with an earlier stamp has not settled, or a
held placement of that source comes before it (08 R199). -/
def State.mustHold (s : State) (reqs : List (Source × Nat)) : Bool :=
  (reqs.any fun r => s.unsettledBefore r.1 r.2) || (s.rn.heldPl.any fun h => stampBefore true h.reqs reqs)

/-- Hand event e to ranking: held for source order, or placed (08 R199). -/
def State.intake (s : State) (e : Nat) (reqs : List (Source × Nat)) (away : Option Nat) : State :=
  if s.mustHold reqs then { s with rn.heldPl := s.rn.heldPl ++ [⟨e, reqs⟩] } else s.place e away

/-- The stamps of the unsettled postings that entry e holds (08 R199). -/
def State.stampsOf (s : State) (e : Nat) : List (Source × Nat) :=
  (s.mi.postings.filter fun p => p.event = some e).map fun p => (p.src, p.stamp)

/-- Hand event e to ranking with its own stamps: at once, or, inside a commit, behind the commit's other effects with the stamps of the
committing entry (05 R115, 08 R199). -/
def State.enter (s : State) (e : Nat) (own : List (Source × Nat)) (commit : Option (List (Source × Nat))) : State :=
  match commit with
  | none => s.intake e own none
  | some l => { s with rn.heldPl := s.rn.heldPl ++ [⟨e, own ++ l⟩] }

/-- A change of entry e with the offers it touches settled. -/
def State.apply (s : State) (stim : Option Stim) (tgt e : Nat) (x : Entry) : State :=
  let d := s.side e
  ((s.putEntry stim tgt e x).settleO d.placed).settleO d.holder

end Sys2Proof.Machine
end

