-- ==== Sys2Proof/Machine/Post.lean ====
section
/-! DEFINITION. The stimuli of Table 02-8 and Table 02-9 as operations: post, cancel, mask, release, unhold, re-offer and the rest
(02 R39 to R41), and the posts of wired lines and internal sources (02 R22, R31). -/
namespace Sys2Proof.Machine

/-- How a post is presented: its payload (none keeps the entry's), whether its source always merges, whether a merge keeps the
payload (wired), NOMERGE, whether payloads combine by OR, the class a SENS channel loads, its stamp, and, of a committed
effect, the stamps of the committing entry (08 R199). -/
structure PostReq where
  payload : Option (BitVec 36)
  merge   : Bool := false
  keepOnMerge : Bool := false
  nomerge : Bool := false
  orMode  : Bool := false
  sens    : Option (BitVec 3) := none
  stamp   : Option (Source × Nat) := none
  reqs    : Option (List (Source × Nat)) := none
deriving DecidableEq, Repr

/-- The outcome of a post (02 R39). -/
inductive PostOut where
  | ok | busy | refused
deriving DecidableEq, Repr

/-- The flag and class that a SENS channel's accepted post sets (02 R30). -/
def PostReq.marks (q : PostReq) (x : Entry) : Entry :=
  match q.sens with | some c => { x with sensitive := true, cls := c } | none => x

/-- The payload that a post leaves. -/
def PostReq.newPayload (q : PostReq) (old : BitVec 36) : BitVec 36 := q.payload.getD old

/-- Record a stamped posting on entry e, unless the trap has settled it (08 R199). -/
def State.addPosting (s : State) (e : Nat) (st : Option (Source × Nat)) : State :=
  match st with
  | some (src, n) => if (s.side e).trapped then s else { s with mi.postings := s.mi.postings ++ [⟨src, n, some e⟩] }
  | none => s

/-- LODGE (02 R39) with content x; a QUEUED entry goes to ranking with the stamps it holds and those of the commit. -/
def State.lodge (s : State) (stim : Stim) (tgt e : Nat) (x : Entry) (st : Option (Source × Nat))
    (more : Option (List (Source × Nat)) := none) : State :=
  let s := (s.addPosting e st).modSide e fun d => { d with replaced := false }
  let reqs := s.stampsOf e
  let s := s.apply (some stim) tgt e { x with state := x.lodged }
  if x.lodged = .queued then s.enter e reqs more else s

/-- A merge into the pending entry e (02 R39, 12 R285). -/
def State.merge (s : State) (q : PostReq) (e : Nat) : State :=
  let x := s.entry e
  let pay := if q.keepOnMerge then x.payload else if q.orMode then x.payload ||| q.newPayload 0 else q.newPayload x.payload
  let away := s.isAway e
  let s := s.addPosting e q.stamp
  let s := if away then s.modSide e fun d => { d with ucount := d.ucount + 1 } else s
  let s := s.apply (some .post) 0 e { q.marks x with payload := pay, merges := satInc x.merges }
  if away then s.sendUpdate e true else s

/-- A merge would take UCOUNT 15 ahead of the acknowledged count (12 R285). -/
def State.ucountFull (s : State) (e : Nat) : Bool :=
  let d := s.side e
  s.isAway e && d.ucount + 1 - d.acked = 15

/-- Present a Post to entry e (02 Table 02-8). -/
def State.post (s : State) (q : PostReq) (e : Nat) : PostOut × State :=
  let x := s.entry e
  if (s.side e).wait then (.busy, s)
  else if q.sens.isSome && x.direct then (.refused, s)
  else match x.state with
  | .idle => (.ok, s.lodge .post 0 e { q.marks x with payload := q.newPayload x.payload } q.stamp q.reqs)
  | .parked =>
    let pay := if q.orMode then x.payload ||| q.newPayload 0 else q.newPayload x.payload
    (.ok, s.lodge .post 0 e { q.marks x with payload := pay, merges := satInc x.merges } q.stamp q.reqs)
  | .claimed =>
    (.ok, s.apply (some .post) 0 e { q.marks x with state := .claimedRepost, payload := q.newPayload x.payload })
  | .heldJoin | .heldTwokey | .faulted => (.refused, s)
  | _ =>
    if (q.orMode || x.coalesce || q.merge) && !q.nomerge && !s.ucountFull e then (.ok, s.merge q e) else (.busy, s)

/-- The input of line n is active (02 R21). -/
def State.lineActive (s : State) (n : Nat) : Bool := bit s.wf.inputs n != bit s.wf.activeLow n

/-- A wired post of line n; one that the entry refuses or is busy for waits in the latch (02 R23). -/
def State.wirePost (s : State) (n : Nat) : State :=
  let q : PostReq := { payload := some (BitVec.ofNat 36 n), merge := true, keepOnMerge := true }
  match s.post q (0x40 + n) with
  | (.ok, s') => { s' with wf.pend := setBit s'.wf.pend n false }
  | (_, s') => { s' with wf.pend := setBit s'.wf.pend n true }

/-- What a change of entry e brings from its line, which was active before the change or not: a level line that is active posts when the entry is
IDLE, and an edge line that a new ACTIVE_LOW makes active has made its transition (02 R21, R22). Inside a commit the post follows the commit's
last group (05 R116). -/
def State.lineRepost (s : State) (was : Bool) (e : Nat) : State :=
  if isWired e && (s.side e).lock.isNone && s.wf.enabled && s.lineActive (e - 0x40) &&
      (if bit s.wf.level (e - 0x40) then (s.entry e).state = .idle else !was) then
    s.wirePost (e - 0x40)
  else s

/-- A change of entry e with offers settled and its wired line's posts presented. -/
def State.change (s : State) (stim : Option Stim) (tgt e : Nat) (x : Entry) : State :=
  (s.apply stim tgt e x).lineRepost (s.lineActive (e - 0x40)) e

/-- The lodging banks have no power: SLEEP, and the exit from it (14 Tables 14-1, 14-7). -/
def State.banksOff (s : State) : Bool := s.np.state = .sleep || (s.np.state = .exiting && s.np.target ≠ 1)

/-- The post of internal source src with its detail: held on the pending bit before READY, without banks, under a commit lock, where the
entry cannot take it, or where it would be placed or draw a release while ranking and curfew act on nothing (02 R31, R39, 14 R310, 15 R324). -/
def State.internal (s : State) (src : Nat) (detail : Nat) : State :=
  let d := BitVec.ofNat 24 detail
  let hold (s : State) : State := { s with lt.srcPend := tset none s.lt.srcPend src (some d) }
  if !s.ready || s.banksOff || (s.side src).lock.isSome || (!s.awake && ((s.entry src).direct || (s.entry src).sensitive)) then hold s else
  match s.post { payload := some (d.setWidth 36), merge := true } src with
  | (.ok, s') => { s' with lt.srcPend := tset none s'.lt.srcPend src none }
  | (_, s') => hold s'

/-- The internal sources of Table 13-3. -/
def srcErrCorrected : Nat := 0
def srcErrUncorr : Nat := 1
def srcTollViolation : Nat := 2
def srcArbStarve : Nat := 3
def srcArbCutoff : Nat := 4
def srcStepTrap : Nat := 5
def srcItinTrap : Nat := 6
def srcOfferTmo : Nat := 7
def srcServiceTmo : Nat := 8
def srcExpiry : Nat := 9
def srcLaneSpared : Nat := 0xA
def srcWidthChange : Nat := 0xB
def srcCourierDown : Nat := 0xC
def srcPairFailover : Nat := 0xD
def srcRngHealth : Nat := 0xE
def srcRngReady : Nat := 0xF
def srcFlrDone : Nat := 0x10
def srcMigrate : Nat := 0x11
def srcPool : Nat := 0x12
def srcTwokey : Nat := 0x13
def srcSpared : Nat := 0x14
def srcReloaded : Nat := 0x15
def srcZeroised : Nat := 0x16
def srcGbGap : Nat := 0x17

/-! ### Other stimuli of Table 02-8 -/

/-- Cancel; answers whether the table gives an effect other than Ignore. -/
def State.cancel (s : State) (e : Nat) : Bool × State :=
  let x := s.entry e
  match x.state with
  | .posted | .queued | .offered | .heldCurfew | .parked => (true, s.change (some .cancel) 0 e { x with state := .idle })
  | .claimedRepost => (true, s.apply (some .cancel) 0 e { x with state := .claimed })
  | _ => (false, s)

/-- MASK set: an OFFERED entry returns to QUEUED; a FAULTED one ignores it. -/
def State.maskSet (s : State) (e : Nat) : State :=
  let x := s.entry e
  if x.state = .faulted || x.mask then s
  else s.apply (some .maskSet) 0 e { x with mask := true, state := if x.state = .offered then .queued else x.state }

/-- MASK clear: a POSTED DIRECT entry goes to QUEUED. -/
def State.maskClear (s : State) (e : Nat) (more : Option (List (Source × Nat)) := none) : State :=
  let x := s.entry e
  if x.state = .faulted || !x.mask then s
  else if x.state = .posted && x.direct then
    (s.apply (some .maskClear) 0 e { x with mask := false, state := .queued }).enter e [] more
  else
    let s := s.apply (some .maskClear) 0 e { x with mask := false }
    match (s.side e).placed with | some t => s.settle t.toNat | none => s

/-- FLR squash (02 Table 02-8): to IDLE, but FAULTED stays. -/
def State.squash (s : State) (e : Nat) : State :=
  let x := s.entry e
  if x.state = .faulted || x.state = .idle then s else s.change (some .flr) 0 e { x with state := .idle }

/-- An uncorrectable entry goes FAULTED; every field but STATE and FUNCTION is 0 (13 R296). -/
def State.faultEntry (s : State) (e : Nat) : State :=
  let s := s.modSide e fun d => { d with lock := none, wait := false }
  s.apply (some .uncorrectable) 0 e { state := .faulted, function := s.ownerOf e }

/-! ### Progress stimuli of Table 02-9 -/

/-- Record a Release or Unhold that met a FAULTED entry (13 R303). -/
def State.lostStim (s : State) (e : Nat) (kind : BitVec 2) : State :=
  let s := { s with er.stimLost := satInc s.er.stimLost }
  if s.er.stimValid then { s with er.stimOvf := true }
  else { s with er.stimEvent := BitVec.ofNat 17 e, er.stimKind := kind, er.stimValid := true }

/-- Release of a follow-on; unsat says that its context is armed and unsatisfied (04 R83). -/
def State.release (s : State) (e : Nat) (unsat : Bool) (more : Option (List (Source × Nat)) := none) : State :=
  let x := s.entry e
  match x.state with
  | .heldJoin =>
    if unsat then s.apply (some .release) 0 e { x with state := .heldTwokey } else s.lodge .release 0 e x none more
  | .heldTwokey => s.lodge .release 0 e x none more
  | .faulted => s.lostStim e 1
  | _ => s

/-- Unhold of a follow-on (02 Table 02-9). -/
def State.unholdFollow (s : State) (e : Nat) : State :=
  let x := s.entry e
  match x.state with
  | .heldJoin | .heldTwokey => s.change (some .unhold) 0 e { x with state := .idle }
  | .faulted => s.lostStim e 2
  | _ => s

/-- Commit gate of a follow-on. -/
def State.gate (s : State) (e : Nat) (st : EvState) (payload : Option (BitVec 36)) : State :=
  let x := s.entry e
  if x.state = .idle then s.apply (some .gate) 0 e { x with state := st, payload := payload.getD x.payload } else s

/-- Re-offer: back to QUEUED, marked REPLACED where asked, out of its place, its service timer gone; the caller places it. -/
def State.reoffer (s : State) (tgt e : Nat) (x : Entry) (mark : Bool) : State :=
  let d := s.side e
  let s := s.putEntry (some .reoffer) tgt e { x with state := .queued }
  let s := (s.unrank e).modSide e fun y => { y with replaced := y.replaced || mark }
  (s.settleO d.placed).settleO d.holder

/-- Complete by its holder: CLAIMED to IDLE, CLAIMED_REPOST through LODGE (02 Table 02-9). -/
def State.complete (s : State) (tgt e : Nat) : State :=
  let x := s.entry e
  match x.state with
  | .claimed => s.change (some .complete) tgt e { x with state := .idle }
  | .claimedRepost => s.lodge .complete tgt e x none
  | _ => s

/-- The GB_GAP post that a GAP record owes (15 R334). -/
def State.payGap (s : State) : State :=
  match s.gb.gapDue with
  | some n => { s with gb.gapDue := none }.internal srcGbGap n.toNat
  | none => s

end Sys2Proof.Machine
end

