-- ==== Sys2Proof/Machine/Contexts.lean ====
section
/-! DEFINITION. Ledger contexts: their words, the operations of Table 04-2, NEXT, boosts, records and two-key releases (04). -/
namespace Sys2Proof.Machine

/-! ### The call list (04 R87, R89) -/

/-- The first step in force of curve k at or after index i. -/
def State.stepFrom (s : State) (k i : Nat) : Option Nat := (List.range 8).find? fun n => i ≤ n && (s.curve k n).valid

/-- BOOST_END as the curve gives from step i: no step remains in force. -/
def State.boostEndFrom (s : State) (k i : Nat) : Bool := (s.stepFrom k i).isNone

/-- The instant of step n of context x. -/
def State.stepInstant (s : State) (x : Ctx) (n : Nat) : Instant :=
  x.deadline - (s.curve x.curve.toNat n).slack.setWidth 48

/-- The end of the two-key window of context x, in ns; none while it does not end (04 R100). -/
def State.windowEnd (s : State) (x : Ctx) : Option Instant :=
  let w := s.keyWindow x.winsel.toNat
  if x.keyOne && w ≠ 0 then some (x.keyFirst + BitVec.ofNat 48 (w.toNat * 1024)) else none

/-- Where instant i stands in the call list's order at time t: the reached instants in ascending order, then the others (04 R86, R89). -/
def callKey (t i : Instant) : Nat := (i - t - 1 + BitVec.ofNat 48 (2 ^ 47)).toNat

/-- Instant a comes before b in the order of the call list. -/
def State.sooner (s : State) (a b : Instant) : Bool := callKey s.now a < callKey s.now b

/-- NEXT and NEXT_KIND of context x (04 R89): the first in the order of the call list. -/
def State.nextOf (s : State) (x : Ctx) : NextKind × Instant :=
  let b : List (NextKind × Instant) :=
    if x.dlv && !x.boostEnd then
      match s.stepFrom x.curve.toNat x.step.toNat with
      | some n => [(.boost, s.stepInstant x n)]
      | none => []
    else []
  let d : List (NextKind × Instant) := if x.dlv && !x.expired then [(.expiry, x.deadline)] else []
  let w : List (NextKind × Instant) := match s.windowEnd x with | some i => [(.window, i)] | none => []
  match b ++ d ++ w with
  | [] => (.none, 0)
  | a :: l => l.foldl (fun m y => if s.sooner y.2 m.2 then y else m) a

def NextKind.code : NextKind → Nat
  | .none => 0 | .boost => 1 | .expiry => 2 | .window => 3

/-- A context's owner keeps it off the call list: FROZEN, SAVING or RESTORING (09 R228). -/
def State.callStopped (s : State) (x : Ctx) : Bool :=
  let st := (s.fn x.owner.toNat).state
  st = .frozen || st = .saving || st = .restoring

/-- The contexts on the call list with their instants, in ascending context order. -/
def State.callList (s : State) : List (Nat × NextKind × Instant) :=
  s.lg.ctxs.filterMap fun p =>
    let n := s.nextOf p.2
    if n.1 = .none || s.callStopped p.2 || p.2.state = .faulted then none else some (p.1, n)

/-- The first of the call list: earliest instant, then lowest context. -/
def State.callHead (s : State) : Option (Nat × NextKind × Instant) :=
  match s.callList with
  | [] => none
  | a :: l => some (l.foldl (fun m y => if s.sooner y.2.2 m.2.2 then y else m) a)

/-- The next context to fire: the first of the call list whose firing is not held by a full queue (04 R89, R96). -/
def State.callNext (s : State) : Option Nat :=
  match s.callList.filter fun p => !(p.2.1 = .expiry && s.lg.heldExp.contains p.1) &&
      !(p.2.1 = .window && s.lg.heldWin.contains (p.1, false)) with
  | [] => none
  | a :: l => some (l.foldl (fun m y => if s.sooner y.2.2 m.2.2 then y else m) a).1

/-- Context c may fire kind k now: it is the next to fire, its NEXT is a reached k, and no commit or restore holds it. -/
def State.fires (s : State) (c : Nat) (k : NextKind) : Bool :=
  let n := s.nextOf (s.ctx c)
  n.1 = k && reached s.now n.2 && s.callNext = some c && (s.ctxLock c).isNone && !s.ctxWait c

/-! ### Changes of a context -/

/-- FREE: R81 clears the record of the transaction and keeps EPOCH. -/
def Ctx.free (x : Ctx) : Ctx :=
  { x with
    state := .free, dlv := false, expired := false, armed := false, keyOne := false, keysat := false, folv := false,
    count := 0, floor := 0, step := 0, boostEnd := false }

/-- Closed without release: LAPSED while completions are awaited, else FREE (04 Table 04-2 DLCLR). -/
def Ctx.lapse (x : Ctx) : Ctx :=
  if x.count = 0 then x.free
  else { x with
    state := .lapsed, dlv := false, expired := false, armed := false, keyOne := false, keysat := false, folv := false }

/-- Mark STALE the queued records that name context c and count them; expOnly marks expiry records alone (04 R94, R96). -/
def State.markStale (s : State) (c : Nat) (expOnly : Bool) : State :=
  let hit (r : LedRec) : Bool := r.context.toNat = c && !r.stale
  let mark (r : LedRec) : LedRec := if hit r then { r with stale := true } else r
  let n := s.lg.expQ.countP hit + (if expOnly then 0 else s.lg.keyQ.countP hit)
  { s with
    lg.expQ := s.lg.expQ.map mark, lg.keyQ := if expOnly then s.lg.keyQ else s.lg.keyQ.map mark,
    lg.expStale := satAdd s.lg.expStale n }

/-- Install context c's new content in one access group: VERSION advances, a close marks its records, and a held firing whose
instant is gone is dropped (04 R81, R96). -/
def State.putCtx (s : State) (c : Nat) (x : Ctx) : State :=
  let old := s.ctx c
  let new := { x with version := old.version + 1 }
  let s := s.setCtx c new
  let s := if old.state = .opened && new.state ≠ .opened then s.markStale c false else s
  let s := if !new.dlv || (new.expired && !old.expired) || new.deadline ≠ old.deadline then
      { s with lg.heldExp := s.lg.heldExp.filter (· ≠ c) } else s
  if !new.keyOne || new.keyFirst ≠ old.keyFirst then { s with lg.heldWin := s.lg.heldWin.filter (· ≠ (c, false)) } else s

/-- What an operation on a context does to its follow-on. -/
inductive FollowAct where
  | none | release (unsat : Bool) | unhold | gate (st : EvState)
deriving DecidableEq, Repr

/-- An operation's result: the context after, and what its follow-on receives. -/
structure CtxOut where
  ctx : Ctx
  act : FollowAct := .none
deriving DecidableEq, Repr

/-- JOIN (04 Table 04-2, R83); fs is the follow-on's state. -/
def Ctx.join (x : Ctx) (fs : EvState) : Option CtxOut :=
  if x.count = 0 then none
  else
    let y := { x with count := x.count - 1 }
    match x.state with
    | .opened =>
      if y.count ≠ 0 then some ⟨y, .none⟩
      else if !x.folv then some ⟨y.free, .none⟩
      else match fs with
        | .heldJoin => if x.armed && !x.keysat then some ⟨y, .release true⟩ else some ⟨y.free, .release false⟩
        | .heldTwokey => if x.keysat then some ⟨y.free, .release false⟩ else some ⟨y, .none⟩
        | .faulted => some ⟨y.free, .release false⟩
        | _ => some ⟨y.free, .none⟩
    | .lapsed => some ⟨if y.count = 0 then y.free else y, .none⟩
    | _ => none

/-- JADD n with an optional follow-on (04 Table 04-2); fs is the follow-on's state. -/
def Ctx.jadd (x : Ctx) (n : BitVec 12) (f : Option Nat) (fs : EvState) : Option CtxOut :=
  if n = 0 then none
  else match x.state, f with
    | .free, some e =>
      if fs = .idle then
        some ⟨{ x with state := .opened, count := n, epoch := x.epoch + 1, follow := BitVec.ofNat 17 e, folv := true },
          .gate .heldJoin⟩
      else none
    | .free, none => some ⟨{ x with state := .opened, count := n, epoch := x.epoch + 1, folv := false }, .none⟩
    | .opened, none => if x.count.toNat + n.toNat ≤ 4095 then some ⟨{ x with count := x.count + n }, .none⟩ else none
    | _, _ => none

/-- DLSET (04 Table 04-2); be is BOOST_END as the curve gives. -/
def Ctx.dlset (x : Ctx) (d : Instant) (k : BitVec 4) (be : Bool) : Option CtxOut :=
  if x.state = .opened then
    some ⟨{ x with deadline := d, curve := k, dlv := true, step := 0, boostEnd := be, expired := false }, .none⟩
  else none

/-- DLCLR (04 Table 04-2). -/
def Ctx.dlclr (x : Ctx) : Option CtxOut :=
  if x.state = .opened then some ⟨x.lapse, if x.folv then .unhold else .none⟩ else none

/-- KEYARM (04 Table 04-2). -/
def Ctx.keyarm (x : Ctx) (w : BitVec 2) (f : Option Nat) (fs : EvState) : Option CtxOut :=
  match x.state, f with
  | .free, some e =>
    if fs = .idle then
      some ⟨{ x with
        state := .opened, count := 0, epoch := x.epoch + 1, armed := true, winsel := w, follow := BitVec.ofNat 17 e,
        folv := true }, .gate .heldTwokey⟩
    else none
  | .opened, none => if x.folv && !x.armed then some ⟨{ x with armed := true, winsel := w }, .none⟩ else none
  | _, _ => none

/-- STX (04 Table 04-2). -/
def Ctx.stx (x : Ctx) (v : BitVec 36) : Option CtxOut :=
  if x.state = .opened || x.state = .lapsed then some ⟨{ x with aux := v }, .none⟩ else none

/-- Apply an operation's result to context c and its follow-on (04 R83). -/
def State.applyCtx (s : State) (c : Nat) (o : CtxOut) (payload : Option (BitVec 36))
    (more : Option (List (Source × Nat)) := none) : State :=
  let f := match o.act with | .gate _ => o.ctx.follow.toNat | _ => (s.ctx c).follow.toNat
  let s := s.putCtx c o.ctx
  match o.act with
  | .none => s
  | .release u => s.release f u more
  | .unhold => s.unholdFollow f
  | .gate st => s.gate f st payload

/-- An uncorrectable context goes FAULTED (13 R296). -/
def State.faultCtx (s : State) (c : Nat) : State :=
  let x := s.ctx c
  let s := s.putCtx c { state := .faulted, owner := s.ctxOwnerOf c, folv := x.folv, follow := x.follow }
  let s := s.markStale c false
  let s := s.setCtx c { s.ctx c with version := 0 }
  { s with lg.locks := tset none s.lg.locks c none, lg.waits := tset false s.lg.waits c false }

/-! ### Context words (04 Table 04-1) -/

def CtxState.code : CtxState → Nat
  | .free => 0 | .opened => 1 | .lapsed => 2 | .faulted => 3

def CtxState.ofCode (c : BitVec 2) : CtxState :=
  if c = 0 then .free else if c = 1 then .opened else if c = 2 then .lapsed else .faulted

/-- Bits [7:0] of word 0, as LDX selector 0 returns them (07 Table 07-4). -/
def Ctx.flags (x : Ctx) : List (Nat × Nat) :=
  [(2, x.state.code), (1, b2n x.dlv), (1, b2n x.expired), (1, b2n x.armed), (1, b2n x.keyOne), (1, b2n x.keysat),
    (1, b2n x.folv)]

/-- Word w of context x with its NEXT. -/
def Ctx.word (x : Ctx) (n : NextKind × Instant) (w : Nat) : Word :=
  match w with
  | 0 => Machine.word (x.flags ++ [(12, x.count.toNat), (12, x.version.toNat), (10, x.owner.toNat), (12, x.epoch.toNat)])
  | 1 => Machine.word [(48, x.deadline.toNat), (4, x.curve.toNat), (3, x.step.toNat), (1, b2n x.boostEnd)]
  | 2 => Machine.word [(17, x.follow.toNat), (12, x.floor.toNat), (2, x.winsel.toNat)]
  | 3 => Machine.word [(48, x.keyFirst.toNat), (12, x.keySession.toNat)]
  | 4 => Machine.word [(8, x.keyInit.toNat)]
  | 5 => Machine.word [(48, n.2.toNat), (2, n.1.code)]
  | 6 => Machine.word [(36, x.aux.toNat)]
  | _ => 0

/-- A context from its eight words; NEXT and NEXT_KIND are ignored. -/
def ctxOfWords (w : Nat → Word) : Ctx where
  state := CtxState.ofCode (fld (w 0) 0 2)
  dlv := bit (w 0) 2
  expired := bit (w 0) 3
  armed := bit (w 0) 4
  keyOne := bit (w 0) 5
  keysat := bit (w 0) 6
  folv := bit (w 0) 7
  count := fld (w 0) 8 12
  version := fld (w 0) 20 12
  owner := fld (w 0) 32 10
  epoch := fld (w 0) 42 12
  deadline := fld (w 1) 0 48
  curve := fld (w 1) 48 4
  step := fld (w 1) 52 3
  boostEnd := bit (w 1) 55
  follow := fld (w 2) 0 17
  floor := fld (w 2) 17 12
  winsel := fld (w 2) 29 2
  keyFirst := fld (w 3) 0 48
  keySession := fld (w 3) 48 12
  keyInit := fld (w 4) 0 8
  aux := fld (w 6) 0 36

/-! ### Firings and records (04 R92, R95, R96, R100) -/

/-- The record of context c (04 Table 04-5). -/
def State.ledRec (s : State) (c : Nat) (twoKey : Bool) : LedRec :=
  let x := s.ctx c
  ⟨BitVec.ofNat 12 c, x.epoch, x.count, false, twoKey, x.armed, x.keysat⟩

/-- A ledger record as 48 bits. -/
def LedRec.bits (r : LedRec) : BitVec 48 :=
  BitVec.ofNat 48 (pack [(12, r.context.toNat), (12, r.epoch.toNat), (12, r.count.toNat), (1, b2n r.stale), (1, b2n r.twoKey),
    (1, b2n r.armed), (1, b2n r.keysat)])

/-- Context c's function keeps its firings back (09 R228). -/
def State.keptBack (s : State) (c : Nat) : Bool := s.callStopped (s.ctx c)

/-- The expiry record of context c is queued and DEADLINE_EXPIRY posted. -/
def State.queueExp (s : State) (c : Nat) : State :=
  ({ s with lg.expQ := s.lg.expQ ++ [s.ledRec c false] }).internal srcExpiry c

/-- The expiry of context c takes effect: EXPIRED, where THAW has not found it set, and its record. -/
def State.expire (s : State) (c : Nat) : State :=
  (if (s.ctx c).expired then s else s.putCtx c { s.ctx c with expired := true }).queueExp c

/-- No expiry record can be queued now: the queue is full, or an earlier firing is held (04 R89, R96). -/
def State.expFull (s : State) : Bool := 256 ≤ s.lg.expQ.length || s.lg.heldExp.any fun d => !s.keptBack d

/-- Hold the expiry of context c. -/
def State.holdExp (s : State) (c : Nat) : State :=
  if s.lg.heldExp.contains c then s else { s with lg.heldExp := s.lg.heldExp ++ [c] }

/-- The deadline of context c fires, or is held. -/
def State.fireExpiry (s : State) (c : Nat) : State := if s.expFull then s.holdExp c else s.expire c

/-- A two-key timeout record of context c is queued, with the fields the context has now, and TWOKEY_TIMEOUT is posted (04 R95). A
record held alone is posted only here, and STALE is clear in it though the context may have closed since its window ended: DESIGN
CHOICE (notes/assumptions/55.md). -/
def State.queueKey (s : State) (c : Nat) : State :=
  ({ s with lg.keyQ := s.lg.keyQ ++ [s.ledRec c true] }).internal srcTwokey c

/-- The end of context c's window takes effect: KEY_ONE is cleared and its record queued. -/
def State.closeWindow (s : State) (c : Nat) : State := (s.putCtx c { s.ctx c with keyOne := false }).queueKey c

/-- A firing held on the two-key queue can go on: a record alone always, a firing unless its function keeps it back (09 R228). -/
def State.keyMayGo (s : State) (p : Nat × Bool) : Bool := p.2 || !s.keptBack p.1

/-- No two-key record can be queued now: the queue is full, or an earlier one is held (04 R96). -/
def State.keyFull (s : State) : Bool := 64 ≤ s.lg.keyQ.length || s.lg.heldWin.any s.keyMayGo

/-- The call list fires a window's end; held while its record cannot be queued. -/
def State.fireWindow (s : State) (c : Nat) : State :=
  if s.keyFull then
    if s.lg.heldWin.contains (c, false) then s else { s with lg.heldWin := s.lg.heldWin ++ [(c, false)] }
  else s.closeWindow c

/-- The record of a window's end that a release has carried out: queued, or held alone (04 R96, R100). -/
def State.recordWindow (s : State) (c : Nat) : State :=
  if s.keyFull then { s with lg.heldWin := s.lg.heldWin ++ [(c, true)] } else s.queueKey c

/-! ### Boost (04 R87, 03 R74) -/

/-- The floor a firing applies to x: the greatest of FLOOR and the floors of the reached steps from STEP, and the step after. -/
def State.boostFrom (s : State) (x : Ctx) : Nat → Nat → BitVec 12 → BitVec 12 × Nat
  | 0, i, fl => (fl, i)
  | n + 1, i, fl =>
    match s.stepFrom x.curve.toNat i with
    | some j =>
      if reached s.now (s.stepInstant x j) then
        let f := (s.curve x.curve.toNat j).floor
        s.boostFrom x n (j + 1) (if fl < f then f else fl)
      else (fl, i)
    | none => (fl, i)

/-- The ranked candidates of context c (03 Re-ranking on boost), by ascending identifier: DESIGN CHOICE, the spec gives no order of visits
(notes/assumptions/54.md). -/
def State.chain (s : State) (c : Nat) : List Nat :=
  (s.lt.entries.filter fun p => p.2.state.ranked && p.2.ctxv && p.2.context.toNat = c).map (·.1)

/-- One visit of a boost step with the given floor (03 R74). -/
def State.visit (s : State) (floor : BitVec 12) (e : Nat) : State :=
  let x := s.entry e
  if x.priority < floor then
    let s := s.putEntry none 0 e { x with priority := floor }
    match (s.side e).placed with
    | some t => s.rerank t.toNat e x.priority.toNat
    | none => s
  else s

/-- Fire the boost step of context c. -/
def State.fireBoost (s : State) (c : Nat) : State :=
  let x := s.ctx c
  let r := s.boostFrom x 8 x.step.toNat x.floor
  let ch := s.chain c
  let s := s.putCtx c { x with
    floor := r.1, step := BitVec.ofNat 3 r.2, boostEnd := s.boostEndFrom x.curve.toNat r.2 }
  ch.foldl (fun s e => s.visit r.1 e) s

/-! ### Two-key releases (04 R99) -/

/-- The window of x has ended as of the latest strobe (04 R99). -/
def State.windowOver (s : State) (x : Ctx) : Bool :=
  match s.windowEnd x with | some i => reached s.now i | none => false

/-- Record the first release of a pair. -/
def State.recordKey (s : State) (c : Nat) (sess : BitVec 12) (init : BitVec 8) : State :=
  s.putCtx c { s.ctx c with keyOne := true, keyFirst := s.now, keySession := sess, keyInit := init }

/-- A release that finds the window over carries out its end and records itself, in one access group (04 R99, R100). A firing that was
held leaves its record held alone in its place. -/
def State.windowThenKey (s : State) (c : Nat) (sess : BitVec 12) (init : BitVec 8) : State :=
  if s.lg.heldWin.contains (c, false) then
    { s with lg.heldWin := s.lg.heldWin.map fun p => if p = (c, false) then (c, true) else p }.recordKey c sess init
  else (s.recordKey c sess init).recordWindow c

/-- A two-key release reaches context c (04 R99). -/
def State.twoKey (s : State) (c : Nat) (sess : BitVec 12) (init : BitVec 8) : State :=
  let x := s.ctx c
  if x.state ≠ .opened || !x.armed || x.keysat then { s with lg.keyIgnored := satInc s.lg.keyIgnored }
  else if !x.keyOne then s.recordKey c sess init
  else if s.windowOver x then s.windowThenKey c sess init
  else if sess = x.keySession then { s with lg.keyDup := satInc s.lg.keyDup }
  else if init = x.keyInit then { s with lg.keySame := satInc s.lg.keySame }
  else
    let y := { x with keysat := true, keyOne := false }
    if x.count = 0 && x.folv && (s.entry x.follow.toNat).state = .heldTwokey then
      s.applyCtx c ⟨y.free, .release false⟩ none
    else s.putCtx c y

end Sys2Proof.Machine
end

