-- ==== Sys2Proof/Machine/Funcs.lean ====
section
/-! DEFINITION. Functions: descriptors, generations, pools, ranges and QUIET (09). -/
namespace Sys2Proof.Machine

/-- State codes (09 Table 09-1). -/
def FnState.code : FnState → Nat
  | .absent => 0 | .inService => 1 | .reset => 2 | .frozen => 3 | .saving => 4 | .restoring => 5

/-- The generation advances (09 R218). -/
def State.advanceGen (s : State) (f : Nat) : State := s.modFn f fun x => { x with gen := x.gen + 1 }

/-- Set function f's state and advance its generation. -/
def State.setFnState (s : State) (f : Nat) (st : FnState) : State :=
  s.modFn f fun x => { x with state := st, gen := x.gen + 1 }

/-- FROZEN, SAVING or RESTORING. -/
def FnState.still (st : FnState) : Bool := st = .frozen || st = .saving || st = .restoring

/-- The runs of function f (09 R220). -/
def State.runsOf (s : State) (f : Nat) : Nat := s.allRuns.countP fun p => p.2.fn.toNat = f

/-- SETTLING: some run still uses an older descriptor of f (07 R194, 09 R219). -/
def State.settling (s : State) (f : Nat) : Bool :=
  s.allRuns.any fun p => p.2.fn.toNat = f && (match p.2.cacheGen with | some g => g ≠ (s.fn f).gen | none => false)

/-- PRI_CEIL of function f; 4,095 for function 0 (09 R221). -/
def State.priCeil (s : State) (f : Nat) : BitVec 12 := if f = 0 then 0xFFF else (s.fn f).priCeil

/-- SHARE handed out to VFs. -/
def State.sharesGiven (s : State) : Nat :=
  (s.fm.fns.map fun p => if p.1 ≠ 0 && p.2.state ≠ .absent then p.2.share.toNat else 0).sum

/-- SHARE of function f: function 0 has the remainder (09 Table 09-3). -/
def State.shareOf (s : State) (f : Nat) : Nat := if f = 0 then 128 - s.sharesGiven else (s.fn f).share.toNat

/-- The descriptor words FND0 to FND15 (09 Table 09-6). -/
def State.descriptor (s : State) (f : Nat) : List (BitVec 12) :=
  let x := s.fn f
  [BitVec.ofNat 12 x.state.code, x.lodgBase.setWidth 12, x.lodgN.setWidth 12, x.ledgBase.setWidth 12, x.ledgN.setWidth 12,
    x.nqBase.setWidth 12, x.nqN.setWidth 12, x.vecBase.setWidth 12, x.vecN.setWidth 12, s.priCeil f,
    BitVec.ofNat 12 (s.shareOf f), BitVec.ofNat 12 (b2n x.enable + 2 * b2n x.fmask), x.index.setWidth 12, fld x.user 0 12,
    fld x.user 12 12, fld x.user 24 12]

/-! ### Ranges -/

/-- The first event and the number of events of function f's lodging range. -/
def Fn.evBase (x : Fn) : Nat := msgBase + 256 * x.lodgBase.toNat
def Fn.evCount (x : Fn) : Nat := 256 * x.lodgN.toNat
/-- The first context and the number of contexts of its ledger range. -/
def Fn.ctxBase (x : Fn) : Nat := 16 * x.ledgBase.toNat
def Fn.ctxCount (x : Fn) : Nat := 16 * x.ledgN.toNat
/-- Its queues and vectors. -/
def Fn.nqCount (x : Fn) : Nat := 8 * x.nqN.toNat
def Fn.vecCount (x : Fn) : Nat := 8 * x.vecN.toNat

/-- Queue q and vector v of a function. -/
def Fn.nq (x : Fn) (q : Nat) : NQueue := tget {} x.queues q
def Fn.vec (x : Fn) (v : Nat) : Vector := tget {} x.vectors v
def Fn.modNq (x : Fn) (q : Nat) (g : NQueue → NQueue) : Fn := { x with queues := tmod {} x.queues q g }
def Fn.modVec (x : Fn) (v : Nat) (g : Vector → Vector) : Fn := { x with vectors := tmod {} x.vectors v g }

/-- Free slots of a queue, those reserved taken off (09 R223, 07 R184). -/
def NQueue.freeSlots (q : NQueue) : Nat := 2 ^ q.logsize.toNat - (q.prod - q.cons).toNat - q.reserved

/-! ### Pools (09 R214) -/

/-- The ranges handed out of a pool, each a base and a count. -/
def State.poolUsed (s : State) (base cnt : Fn → Nat) : List (Nat × Nat) :=
  s.fm.fns.filterMap fun p => if p.2.state = .absent || cnt p.2 = 0 then none else some (base p.2, cnt p.2)

/-- The range at b of n granules meets none handed out. -/
def rangeFree (used : List (Nat × Nat)) (b n : Nat) : Bool := used.all fun u => b + n ≤ u.1 || u.1 + u.2 ≤ b

/-- The lowest base in [lo, hi) with n free granules. -/
def lowestFit (used : List (Nat × Nat)) (lo hi n : Nat) : Option Nat :=
  ((List.range (hi - lo)).map (lo + ·)).find? fun b => b + n ≤ hi && rangeFree used b n

/-- A pool's range for a CREATE: given or by lowest fit, inside [lo, hi). A range of no granules takes none. -/
def pick (used : List (Nat × Nat)) (lo hi n base : Nat) (auto : Bool) : Option Nat :=
  if n = 0 then some (if auto then lo else base)
  else if auto then lowestFit used lo hi n
  else if lo ≤ base && base + n ≤ hi && rangeFree used base n then some base else none

/-- Granules of a pool not handed out. -/
def poolFree (used : List (Nat × Nat)) (total : Nat) : Nat := total - (used.map (·.2)).sum

/-! ### QUIET (09 R229) -/

/-- Function f has nothing in motion. -/
def State.quietNow (s : State) (f : Nat) : Bool :=
  s.runsOf f = 0 &&
  (s.lt.entries.all fun p => p.2.function.toNat ≠ f ||
    !(p.2.state.ranked || p.2.state.taken || p.2.state = .heldCurfew)) &&
  (s.rn.heldPl.all fun h => (s.entry h.event).function.toNat ≠ f) && (s.mi.fences.all fun h => h.fn.toNat ≠ f) &&
  ((s.ep.queue ++ s.ep.spill).all fun w => w.fn.toNat ≠ f)

/-- QUIET of function f as FN_STATE shows it: for a FROZEN function (09 R229). -/
def State.quiet (s : State) (f : Nat) : Bool := (s.fn f).state = .frozen && s.quietNow f

/-- Note a rise or fall of QUIET for function f; a rise posts MIGRATE_STEP. -/
def State.noteQuiet (s : State) (f : Nat) : State :=
  let q := s.quiet f
  if q = (s.fn f).quiet then s else
  let s := s.modFn f fun x => { x with quiet := q }
  if q then s.internal srcMigrate f else s

/-- The functions for which QUIET may have changed. -/
def State.stillFns (s : State) : List Nat := (s.fm.fns.filter fun p => p.2.state = .frozen || p.2.quiet).map (·.1)

/-- A change to an entry or context of the function under SAVE sets DIRTY (09 R231). -/
def noteDirty (old s : State) : State :=
  match s.fm.mig with
  | some m =>
    if m.saving && old.fm.mig.isSome && ((tchanged old.lt.entries s.lt.entries).any (fun e => (s.entry e).function = m.fn) ||
        (tchanged old.lg.ctxs s.lg.ctxs).any (fun c => (s.ctx c).owner = m.fn)) then { s with fm.dirty := true } else s
  | none => s

end Sys2Proof.Machine
end

