-- ==== Sys2Proof/Machine/Pair.lean ====
section
/-! DEFINITION. Pair mode: halves, mirror items and commit groups, shadows, restores and promotion (12 R287 to R292, 13 R297). -/
namespace Sys2Proof.Machine

/-- Pair mode is in force: changes are mirrored (12 R288, R290). -/
def State.mirrorOn (s : State) : Bool := s.cu.pair = .paired || s.cu.pair = .moving

/-- This block's half (12 R287). -/
def State.half (s : State) : Nat := if s.gl.index < s.cu.partner then 0 else 1

/-- Event e lies in half h; the fixed identifiers and the tail lie in neither (12 Table 12-4). -/
def evHalf (h e : Nat) : Bool := if h = 0 then 0x440 ≤ e && e < 0x10000 else 0x10000 ≤ e && e < 0x1FF40
def ctxHalf (h c : Nat) : Bool := c / 2048 = h
def fnHalf (h f : Nat) : Bool := if h = 0 then 1 ≤ f && f ≤ 256 else 257 ≤ f && f ≤ 512

/-! ### Mirror items (12 Table 12-1). The layout of KIND 1 to 3 items is this model's: notes/assumptions/9.md -/

/-- A context's data bits as four word pairs; NEXT travels as 0. -/
def Ctx.pair (x : Ctx) (i : Nat) : BitVec 128 :=
  BitVec.ofNat 128 ((x.word (.none, 0) (2 * i)).toNat + 2 ^ 64 * (x.word (.none, 0) (2 * i + 1)).toNat)

def Entry.data (x : Entry) : BitVec 128 := BitVec.ofNat 128 (x.word0.toNat + 2 ^ 64 * x.word1.toNat)

def entryItem (e : Nat) (x : Entry) : MirrorItem := ⟨0, BitVec.ofNat 32 e, 0, x.data⟩
def ctxItem (c i : Nat) (x : Ctx) : MirrorItem := ⟨1, BitVec.ofNat 32 (c + 4096 * i), 0, x.pair i⟩

def holdItem (h : Hold) : MirrorItem :=
  ⟨2, BitVec.ofNat 32 h.event,
    word [(48, h.p.toNat), (8, (h.j.getD 0).toNat), (1, b2n h.j.isSome), (1, b2n h.mark), (3, h.cls.toNat)], 0⟩

/-- The 192 descriptor bits of function f. -/
def State.descItem (s : State) (f : Nat) : MirrorItem :=
  let n := pack ((s.descriptor f).map fun w => (12, w.toNat))
  ⟨3, BitVec.ofNat 32 f, BitVec.ofNat 64 n, BitVec.ofNat 128 (n / 2 ^ 64)⟩

def nqItem (f q : Nat) (x : NQueue) : MirrorItem :=
  ⟨3, BitVec.ofNat 32 (f + 1024 * (1 + q)), x.base,
    BitVec.ofNat 128 (pack [(1, b2n x.enable), (4, x.logsize.toNat), (16, x.prod.toNat), (1, b2n x.phase), (16, x.cons.toNat)])⟩

def vecItem (f v : Nat) (x : Vector) : MirrorItem :=
  ⟨3, BitVec.ofNat 32 (f + 1024 * (1024 + v)), x.addr,
    BitVec.ofNat 128 (pack [(32, x.data.toNat), (32, x.ctl.toNat), (1, b2n x.pending)])⟩

/-- The changes of this block's half between two states, the items of each together (12 R288). -/
def mirrorChanges (old s : State) : List (List MirrorItem) :=
  let h := s.half
  let es := (tchanged old.lt.entries s.lt.entries).filter (evHalf h)
  let ents := es.map fun e => [entryItem e (s.entry e)]
  let holds := (s.cf.holds.filter fun x => evHalf h x.event && !old.cf.holds.contains x).map fun x => [holdItem x]
  let cs := (tchanged old.lg.ctxs s.lg.ctxs).filter (ctxHalf h)
  let ctxs := cs.map fun c => ((List.range 4).filter fun i => (old.ctx c).pair i ≠ (s.ctx c).pair i).map
      fun i => ctxItem c i (s.ctx c)
  let fs := (tchanged old.fm.fns s.fm.fns).filter (fnHalf h)
  let ds := (fs.filter fun f => old.descriptor f ≠ s.descriptor f).map fun f => [s.descItem f]
  let qs := (fs.map fun f => ((tchanged (old.fn f).queues (s.fn f).queues).filter fun q =>
      nqItem f q ((old.fn f).nq q) ≠ nqItem f q ((s.fn f).nq q)).map fun q => [nqItem f q ((s.fn f).nq q)]).flatten
  let vs := (fs.map fun f => (tchanged (old.fn f).vectors (s.fn f).vectors).map fun v => [vecItem f v ((s.fn f).vec v)]).flatten
  (holds ++ ents ++ ctxs ++ ds ++ qs ++ vs).filter (· ≠ [])

/-- A commit is one group; the changes of any other command are a group each (12 R288). -/
def oneGroup (c : Instr) : Bool := match c with | .commitPhaseB _ => true | _ => false

/-- The groups in which the changes from old to s are mirrored. -/
def mirrorGroups (one : Bool) (old s : State) : List (List MirrorItem) :=
  let l := mirrorChanges old s
  if one && l ≠ [] then [l.flatten] else l

/-- The slots of a commit group: two for each item, and MIRROR_END. -/
def groupSlots (seq : Nat) (l : List MirrorItem) : List (BitVec 128) :=
  (l.map fun i => [slotMirror i.kind.toNat seq i.item.toNat i.low.toNat, i.data]).flatten ++
    [slotMirrorEnd seq (2 * l.length + 1)]

/-- Mirror slots a partner's buffer holds (12 R288). -/
def mirrorRoom : Nat := 4096

/-- Mirror slots sent or waiting, and not yet acknowledged. -/
def State.mirrorLoad (s : State) : Nat := s.cu.backlog.toNat + (s.cu.mirrorQ.map List.length).sum

/-- Send the groups that wait, in order, as far as the partner has room; while MOVING they wait for the new port (12 R290). -/
def State.flushMirror : Nat → State → State
  | 0, s => s
  | n + 1, s =>
    match s.cu.mirrorQ with
    | [] => s
    | g :: l =>
      if s.cu.pair ≠ .paired || mirrorRoom < s.cu.backlog.toNat + g.length then s
      else State.flushMirror n
        (g.foldl (fun s x => s.queueReq s.cu.pairPort.toNat x)
          { s with cu.mirrorQ := l, cu.backlog := satAdd s.cu.backlog g.length })

/-- Number commit groups and send them, behind those that wait (12 R288). -/
def State.sendGroups (s : State) (gs : List (List MirrorItem)) : State :=
  let t := gs.foldl (fun s l =>
    let n := s.cu.groupNo + 1
    { s with cu.groupNo := n, cu.mirrorQ := s.cu.mirrorQ ++ [groupSlots n.toNat l] }) s
  t.flushMirror t.cu.mirrorQ.length

/-- Send one commit group. -/
def State.sendGroup (s : State) (l : List MirrorItem) : State := s.sendGroups [l]

/-- Group n has not been acknowledged. -/
def State.groupWaits (s : State) (n : BitVec 16) : Bool :=
  let d := (n - s.cu.ackedNo).toNat
  0 < d && d ≤ (s.cu.groupNo - s.cu.ackedNo).toNat

/-- Tag the egress writes added since old with group n (12 R289). -/
def tagWrites (old s : State) (n : BitVec 16) : State :=
  let tag (k : Nat) (l : List EgWrite) : List EgWrite := l.take k ++ (l.drop k).map fun w => { w with group := some n }
  { s with ep.queue := tag old.ep.queue.length s.ep.queue, ep.spill := tag old.ep.spill.length s.ep.spill }

/-- Mirror the changes from old to s. -/
def mirrorOut (old s : State) (gs : List (List MirrorItem)) : State :=
  if gs = [] then s else (tagWrites old s (s.cu.groupNo + BitVec.ofNat 16 gs.length)).sendGroups gs

/-- The groups find room at the partner, or are more than its buffer ever holds at once and find it empty. -/
def State.mirrorFits (s : State) (gs : List (List MirrorItem)) : Bool :=
  let need := (gs.map fun l => 2 * l.length + 1).sum
  s.mirrorLoad + need ≤ mirrorRoom || (mirrorRoom < need && s.mirrorLoad = 0)

/-! ### What every change owes -/

/-- The attributes of a host access to one window word. -/
def hostAttr : Instr → Option HpAttr
  | .registerWrite h _ _ | .doorbellPost h _ _ | .doorbellPostKeep h _ _ | .doorbellCancel h _ _ | .doorbellMask h _ _
  | .doorbellUnmask h _ _ | .fenceDoorbell h _ _ | .twoKeyRelease h _ _ | .lodgingWindowWord1Write h _ _
  | .lodgingWindowWord0Write h _ _ | .ledgerWindowHeldWrite h _ _ _ | .ledgerWindowWord0Write h _ _ | .tgtClaim h _
  | .tgtComplete h _ _ | .tgtThresholdWrite h _ _ | .tgtCfgWrite h _ _ | .rnkGrpCfgWrite h _ _ | .rnkGrpMaskWrite h _ _ _
  | .arbCfgWrite h _ | .paceRestart h | .selfTrapClear h | .itStoreWrite h _ _ | .seal h
  | .create h _ | .modify h _ | .destroy h _ | .flr h _ | .freeze h _ | .thaw h _ | .save h _ | .restore h _ | .next h _ _
  | .abort h _ | .snapshotWindowWrite h _ _ | .msixCtlWrite h _ _ | .msixTableWrite h _ _ _ _ | .nqConsWrite h _ _ _
  | .nqBaseWrite h _ _ _ | .nqCfgWrite h _ _ _ | .close h | .reopen h | .tollRegionWrite h _ _ | .curCfgWrite h _ _
  | .curRetrain h _ | .curRemap h _ | .curPark h _ | .curUnpark h _ | .curRoomGrantWrite h _ | .pairPortWrite h _
  | .promote h | .noiseLostClear h | .pwrNap h | .pwrSleep h | .pwrCfgWrite h _ | .peakClr h | .fixedScramble h
  | .loopStart h _ _ | .loopRespond h _ _ | .loopStop h _ | .dloopEnWrite h _ _ | .dispatchHoldWrite h _
  | .glbBlockIndexWrite h _ | .portCountClear h => some h
  | _ => none

/-- A command that is presented once and so must be kept while it waits: a host access, an engine record, or a report or a group's
end from a peer. Any other command that cannot take effect yet is presented again by its source. -/
def oneShot (c : Instr) : Bool :=
  (hostAttr c).isSome ||
    (match c with | .hostRequest _ | .engineRecord _ _ | .report _ _ _ _ _ | .mirrorEnd _ _ _ => true | _ => false)

/-- A command that no requester presents again: levels and wires of the RNG port, what a link receives or loses, errors found, and steps
of the always-on domain. Its own effect cannot wait; the groups of the changes it brings wait for the partner's room instead (DESIGN
CHOICE, notes/assumptions/14.md). -/
def cannotWait (c : Instr) : Bool :=
  match c with
  | .rngFailRise | .rngFailFall | .rngReadyRise | .rngReadyFall | .flitReceive _ _ | .flitLockLoss _ _ | .ackTimerExpiry _
  | .laneWindowEnd _ | .propose _ _ _ | .answer _ _ _ | .parkReq _ _ | .parkAck _ _ | .linkZeroise _ | .trainingBlockReceive _ _ _
  | .eqComplete _ _ | .alignComplete _ | .retrainComplete _ | .spareLockTimeout _ _ | .prbs31BlockReceive _ _ _
  | .place _ _ _ _ _ _ _ | .update _ _ _ _ _ _ _ | .recall _ _ | .mirror _ _ _ _ _ _ | .grant _ _ | .returnRooms _ _ | .mirrorAck _ _ _
  | .porterCheckFail _ _ _ | .porterWatchdogExpiry _ _ | .storeScrub _ _ _ | .scrubPass _ _ _ | .reopenCheckComplete | .startupReady
  | .tbStrobe _ | .wakeExit | .npAlarmFire | .powerEntryPortsParked | .domainPowerGood _ _ => true
  | _ => false

/-- What any change from old to s owes the block itself: QUIET and DIRTY noted, a GB_GAP post paid. -/
def noted (old s : State) : State := noteDirty old (s.stillFns.foldl (fun s f => s.noteQuiet f) s).payGap

/-- The partner receives the changes from old to s. -/
def mirrored (old s : State) : Bool := old.mirrorOn && s.mirrorOn

/-- What follows a change from old to s that cannot wait. -/
def finNow (old s : State) : State :=
  let s := noted old s
  if mirrored old s then mirrorOut old s (mirrorGroups false old s) else s

/-- What follows a change from old to s that command c brings: it is noted and mirrored. A change that finds no mirror room waits: nothing
of it happens now, and a command that is presented once is kept (12 R288). -/
def fin (old : State) (c : Instr) (s : State) : State :=
  let s := noted old s
  if !mirrored old s then s
  else
    let gs := mirrorGroups (oneGroup c) old s
    if gs = [] || cannotWait c || s.mirrorFits gs then mirrorOut old s gs
    else if oneShot c then { old with blocked := old.blocked ++ [c] } else old

end Sys2Proof.Machine
end

