-- ==== Sys2Proof/WellFormed.lean ====
section
/-! DEFINITION. Which commands are well formed: indices within the block's counts, and requests shaped as the port carries
them. -/
namespace Sys2Proof

/-- A cluster has five Porters (05 R103). -/
def RunRef.wf (r : RunRef) : Bool := r.porter.toNat < 5

/-- An arbiter has 24 slots; the first 16 are the clusters' (05 R128). A group has one to four accesses (05 R129). -/
def ArbReq.wf (q : ArbReq) : Bool :=
  q.slot.toNat < 24 && 1 ≤ q.len.toNat && q.len.toNat ≤ 4 &&
    (match q.run with | none => true | some r => r.wf && r.cluster.toNat == q.slot.toNat)

/-- The beats of a write: one for each aligned 8-byte word the access touches (16 R338). -/
def HpReq.beats (q : HpReq) : Nat := (q.addr.toNat % 8 + q.len.toNat + 7) / 8

/-- Whether byte j of beat i lies in the access (16 R338). -/
def HpReq.byteIn (q : HpReq) (i j : Nat) : Bool :=
  q.addr.toNat % 8 <= 8 * i + j && 8 * i + j < q.addr.toNat % 8 + q.len.toNat

/-- A write has its beats, with strobes marking exactly its bytes; a read's data is ignored (16 R338). -/
def HpReq.wf (q : HpReq) : Bool :=
  !q.write || (q.data.length == q.beats && q.strb.length == q.beats &&
    (q.strb.zipIdx.all fun p => (List.range 8).all fun j => p.1.getLsbD j == q.byteIn p.2 j))

/-- What the five physical lanes carry in one flit time: nothing, or the 544 symbols of 136 bytes in equal parts on one, two or four lanes
(11 R250, R252). -/
def flitLines (l : List (List Pam4)) : Bool :=
  let used := l.filter fun x => x.length != 0
  l.length == 5 && (used.length == 0 || used.length == 1 || used.length == 2 || used.length == 4) &&
    used.all fun x => x.length * used.length == 544

/-- The well-formed commands. -/
def Instr.wf : Instr → Bool
  | .hostRequest q => q.wf
  | .hostResponseTaken _ => true
  | .registerWrite _ _ _ => true
  | .doorbellPost _ fn _ => fn.toNat <= 512
  | .doorbellPostKeep _ fn _ => fn.toNat <= 512
  | .doorbellCancel _ fn _ => fn.toNat <= 512
  | .doorbellMask _ fn _ => fn.toNat <= 512
  | .doorbellUnmask _ fn _ => fn.toNat <= 512
  | .fenceDoorbell _ fn _ => fn.toNat <= 512
  | .heldFenceRelease fn => fn.toNat <= 512
  | .twoKeyRelease _ fn _ => fn.toNat <= 512
  | .engineRecord _ _ => true
  | .engineRecordRetry _ => true
  | .wireTransition _ _ => true
  | .wiredLatchRepost _ => true
  | .internalPendingRepost _ => true
  | .lodgingWindowWord1Write _ _ _ => true
  | .lodgingWindowWord0Write _ _ _ => true
  | .ledgerWindowHeldWrite _ _ w _ => w != 0
  | .ledgerWindowWord0Write _ _ _ => true
  | .tgtClaim _ _ => true
  | .tgtComplete _ _ _ => true
  | .tgtThresholdWrite _ _ _ => true
  | .tgtCfgWrite _ _ _ => true
  | .rnkGrpCfgWrite _ _ _ => true
  | .rnkGrpMaskWrite _ _ _ _ => true
  | .heldPlacementRelease _ => true
  | .offerTmoExpiry _ => true
  | .serviceTmoExpiry _ => true
  | .timeoutHeldRelease _ => true
  | .boostStep _ => true
  | .deadlineReached _ => true
  | .twokeyWindowEnd _ => true
  | .ledgerFiringHeldRelease _ => true
  | .curfewRelease _ => true
  | .runQueueTake _ => true
  | .dispatchRead r => r.wf
  | .workSteal r => r.wf
  | .arbGrant a reqs => a.toNat < 40 && reqs.all ArbReq.wf
  | .contextReturn _ p => p.toNat < 5
  | .holdMaxExpiry a => a.toNat < 40
  | .starveLimitExpiry a slot => a.toNat < 40 && slot.toNat < 24
  | .arbCfgWrite _ _ => true
  | .commitPhaseB r => r.wf
  | .serialTokenGrant => true
  | .porterCheckFail _ p _ => p.toNat < 5
  | .porterWatchdogExpiry _ p => p.toNat < 5
  | .paceWindowEnd _ => true
  | .paceRestart _ => true
  | .selfTrapClear _ => true
  | .itStoreWrite _ _ _ => true
  | .seal _ => true
  | .sealComplete => true
  | .storeScrub _ _ _ => true
  | .storeReloadComplete _ => true
  | .add r _ => r.wf
  | .addc r _ => r.wf
  | .sub r _ => r.wf
  | .subb r _ => r.wf
  | .and r _ => r.wf
  | .or r _ => r.wf
  | .xor r _ => r.wf
  | .andn r _ => r.wf
  | .shl r _ => r.wf
  | .shr r _ => r.wf
  | .sar r _ => r.wf
  | .rol r _ => r.wf
  | .min r _ => r.wf
  | .max r _ => r.wf
  | .cmp r _ => r.wf
  | .tst r _ => r.wf
  | .mov r _ => r.wf
  | .movi r _ => r.wf
  | .ldi24 r _ => r.wf
  | .movd r _ => r.wf
  | .rds r _ => r.wf
  | .wrs r _ => r.wf
  | .sel r _ => r.wf
  | .bitf r _ => r.wf
  | .br r _ => r.wf
  | .bc r _ => r.wf
  | .call r _ => r.wf
  | .ret r _ => r.wf
  | .switch r _ => r.wf
  | .budget r _ => r.wf
  | .done r _ => r.wf
  | .trap r _ => r.wf
  | .ldl r _ => r.wf
  | .stl r _ => r.wf
  | .casl r _ => r.wf
  | .post r _ => r.wf
  | .cancel r _ => r.wf
  | .coal r _ => r.wf
  | .park r _ => r.wf
  | .setpri r _ => r.wf
  | .ldx r _ => r.wf
  | .stx r _ => r.wf
  | .join r _ => r.wf
  | .jadd r _ => r.wf
  | .dlset r _ => r.wf
  | .dlclr r _ => r.wf
  | .keyarm r _ => r.wf
  | .keychk r _ => r.wf
  | .offer r _ => r.wf
  | .hint r _ => r.wf
  | .retract r _ => r.wf
  | .msix r _ => r.wf
  | .nqw r _ => r.wf
  | .fwd r _ => r.wf
  | .curf r _ => r.wf
  | .log r _ => r.wf
  | .fence r _ => r.wf
  | .fwait r _ => r.wf
  | .fwaitResume r => r.wf
  | .rand r _ => r.wf
  | .steal r _ => r.wf
  | .time r _ => r.wf
  | .syncgen r _ => r.wf
  | .genack r _ => r.wf
  | .nop r _ => r.wf
  | .create _ _ => true
  | .modify _ _ => true
  | .destroy _ _ => true
  | .flr _ _ => true
  | .flrDrainComplete fn => fn.toNat <= 512
  | .freeze _ _ => true
  | .thaw _ _ => true
  | .save _ _ => true
  | .saveSegmentReady => true
  | .restore _ _ => true
  | .next _ _ _ => true
  | .abort _ _ => true
  | .snapshotWindowWrite _ off _ => off.toNat % 8 == 0
  | .msixCtlWrite _ fn _ => fn.toNat <= 512
  | .msixTableWrite _ fn _ _ _ => fn.toNat <= 512
  | .nqConsWrite _ fn _ _ => fn.toNat <= 512
  | .nqBaseWrite _ fn _ _ => fn.toNat <= 512
  | .nqCfgWrite _ fn _ _ => fn.toNat <= 512
  | .egressWriteIssue _ => true
  | .egressResponse _ _ => true
  | .close _ => true
  | .reopen _ => true
  | .reopenCheckComplete => true
  | .tollRegionWrite _ _ _ => true
  | .flitSend _ => true
  | .flitReceive _ lines => flitLines lines
  | .ackTimerExpiry _ => true
  | .laneWindowEnd _ => true
  | .propose _ _ _ => true
  | .answer _ _ _ => true
  | .parkReq _ _ => true
  | .parkAck _ _ => true
  | .linkZeroise _ => true
  | .trainingBlockReceive _ lane _ => lane.toNat < 5
  | .peerDetected _ lane => lane.toNat < 5
  | .eqComplete _ _ => true
  | .alignComplete _ => true
  | .retrainComplete _ => true
  | .spareTrainingBlockSend _ lane => lane.toNat < 5
  | .spareLockTimeout _ lane => lane.toNat < 5
  | .curWakeAssert _ => true
  | .wakeDriveTimeout _ => true
  | .curCfgWrite _ _ _ => true
  | .curRetrain _ _ => true
  | .curRemap _ _ => true
  | .curPark _ _ => true
  | .curUnpark _ _ => true
  | .place _ _ _ _ _ _ _ => true
  | .update _ _ _ _ _ _ _ => true
  | .recall _ _ => true
  | .report _ _ _ _ _ => true
  | .mirror _ _ _ _ _ _ => true
  | .mirrorEnd _ _ _ => true
  | .grant _ _ => true
  | .returnRooms _ rooms => 1 <= rooms.length && rooms.length <= 6
  | .mirrorAck _ _ _ => true
  | .curRoomGrantWrite _ _ => true
  | .pairPortWrite _ _ => true
  | .promote _ => true
  | .scrubPass arr _ _ => 1 <= arr.toNat && arr.toNat <= 16
  | .sideWordRebuildComplete _ => true
  | .tbStrobe _ => true
  | .rngJitterHandshake _ => true
  | .rngFailRise => true
  | .rngFailFall => true
  | .rngReadyRise => true
  | .rngReadyFall => true
  | .noiseLostClear _ => true
  | .pwrNap _ => true
  | .pwrSleep _ => true
  | .powerEntryPortsParked => true
  | .domainPowerGood d _ => d.toNat < 24
  | .npAlarmFire => true
  | .wakeExit => true
  | .trimIdleExpiry _ => true
  | .pwrCfgWrite _ _ => true
  | .peakClr _ => true
  | .porstNRise => true
  | .porstNFall => true
  | .selftestComplete _ => true
  | .keyHandshakeComplete _ => true
  | .fixedScramble _ => true
  | .startupReady => true
  | .zeroiseRise => true
  | .zeroiseComplete => true
  | .zeroiseFall => true
  | .makerOnlyInstruction _ => true
  | .bypass => true
  | .idcode => true
  | .samplePreload => true
  | .extest => true
  | .startRead => true
  | .loop _ _ => true
  | .paceRead => true
  | .selftest => true
  | .loopStart _ _ _ => true
  | .loopRespond _ _ _ => true
  | .loopStop _ _ => true
  | .dloopEnWrite _ _ _ => true
  | .dloopClaim _ => true
  | .dloopComplete _ => true
  | .dispatchHoldWrite _ _ => true
  | .glbBlockIndexWrite _ _ => true
  | .portCountClear _ => true
  | .flitLockLoss _ lane => lane.toNat < 5
  | .engReqFall _ => true
  | .rngJackFall => true
  | .prbs31BlockReceive _ lane blk => lane.toNat < 5 && (blk.length == 544 || blk.length == 0)
  | .restoreSegmentInstalled => true
  | .destroyDrainComplete fn => fn.toNat <= 512

end Sys2Proof
end

