-- ==== Sys2Proof/Machine/Host.lean ====
section
/-! DEFINITION. How a host-port access is answered: slots, responses, what answers before the block is ready, and the state of
the function whose page is reached (09 R213, 10 R237, R244, 15 R320, 16 R339, R341). -/
namespace Sys2Proof.Machine

/-- The keeper path: function 0 with PRIV and SEC (10 R237). -/
def keeper (h : HpAttr) : Bool := h.fn = 0 && h.priv && h.sec

/-- The privileged PF (10 R237). -/
def privPf (h : HpAttr) : Bool := h.fn = 0 && h.priv

/-- The slot a request may take: 0 to 59, or 60 to 63 on the keeper path (16 R339). -/
def State.freeSlot (s : State) (h : HpAttr) : Option Nat :=
  (List.range (if keeper h then 64 else 60)).find? fun n => s.hp.slots.all fun x => x.slot ≠ n

/-- A request is outstanding under this identifier. -/
def State.hasSlot (s : State) (h : HpAttr) : Bool := s.hp.slots.any fun x => x.id = h.id

/-- The access has or may have a slot. -/
def State.portRoom (s : State) (h : HpAttr) : Bool := s.hasSlot h || (s.freeSlot h).isSome

/-- The access occupies a slot from its taking edge, as a read of so many words or a write of 0; checked says that it passed the gate (10
R244). -/
def State.takeSlot (s : State) (h : HpAttr) (words : Nat) (checked : Bool) : State :=
  if s.hasSlot h then
    { s with hp.slots := s.hp.slots.map fun x => if x.id = h.id then { x with checked := x.checked || checked } else x }
  else match s.freeSlot h with
    | some n => { s with hp.slots := s.hp.slots ++ [⟨h.id, n, checked, words⟩] }
    | none => s

/-- Give the one response of an access (16 R341): the data is 0 unless the code is OK; DENY and DEFER are counted (16 R358). -/
def State.respond (s : State) (h : HpAttr) (code : Code) (data : List Word) : State :=
  let d := if code = .ok then data else data.map fun _ => 0
  { s with
    hp.answer := some (code, d), hp.responses := s.hp.responses ++ [⟨h.id, code, d⟩],
    hp.denies := if code = .deny then satInc s.hp.denies else s.hp.denies,
    hp.defers := if code = .defer then satInc s.hp.defers else s.hp.defers }

/-- A write's response. -/
def State.ok (s : State) (h : HpAttr) : State := s.respond h .ok []
def State.deny (s : State) (h : HpAttr) : State := s.respond h .deny []

/-- PORST_N is low or a ZEROISE or power state keeps the port from taking the access here. -/
def State.portShut (s : State) : Bool := !s.np.porst || !s.awake

/-- The beats of a row's response: one for a read of TGT_CLAIM. -/
def rowBeats (c : Instr) : List Word := match c with | .tgtClaim _ _ => [0] | _ => []

/-! ### The order of one word's accesses (16 R340) -/

/-- The offset of a function's page. -/
def pageBase (fn : BitVec 10) : Nat := 0x4000000 + 0x10000 * fn.toNat

/-- The aperture offset that a host access reaches (17 R359). -/
def cmdOffset (c : Instr) : Option Nat :=
  match c with
  | .hostRequest q => some q.addr.toNat
  | .registerWrite _ off _ => some off.toNat
  | .glbBlockIndexWrite _ _ => some 0x10
  | .dispatchHoldWrite _ _ => some 0x18
  | .fixedScramble _ => some 0x30
  | .portCountClear _ => some 0x310
  | .rnkGrpCfgWrite _ g _ => some (0x1800 + 8 * g.toNat)
  | .rnkGrpMaskWrite _ g k _ => some (0x2000 + 32 * g.toNat + 8 * k.toNat)
  | .selfTrapClear _ => some 0x5008
  | .paceRestart _ => some 0x5010
  | .arbCfgWrite _ _ => some 0x6000
  | .noiseLostClear _ => some 0x7040
  | .create _ _ | .modify _ _ | .destroy _ _ | .flr _ _ | .freeze _ _ | .thaw _ _ | .save _ _ | .restore _ _ | .next _ _ _
  | .abort _ _ => some 0x8000
  | .curRoomGrantWrite _ _ => some 0xB008
  | .pairPortWrite _ _ => some 0xB040
  | .promote _ => some 0xB048
  | .close _ | .reopen _ => some 0x10000
  | .tollRegionWrite _ n _ => some (0x10400 + 8 * n.toNat)
  | .pwrNap _ | .pwrSleep _ => some 0x20000
  | .pwrCfgWrite _ _ => some 0x20010
  | .peakClr _ => some 0x20108
  | .curCfgWrite _ n _ => some (0x30000 + 0x4000 * n.toNat)
  | .curRetrain _ n | .curRemap _ n | .curPark _ n | .curUnpark _ n => some (0x30008 + 0x4000 * n.toNat)
  | .loopStart _ n _ | .loopRespond _ n _ | .loopStop _ n => some (0x40200 + 16 * n.toNat)
  | .dloopEnWrite _ k _ => some (0x40300 + 8 * k.toNat)
  | .itStoreWrite _ i _ => some (0x50000 + 8 * i.toNat)
  | .seal _ => some 0x58000
  | .ledgerWindowHeldWrite _ x w _ => some (0x80000 + 64 * x.toNat + 8 * w.toNat)
  | .ledgerWindowWord0Write _ x _ => some (0x80000 + 64 * x.toNat)
  | .tgtClaim _ t => some (0x100000 + 0x1000 * t.toNat)
  | .tgtComplete _ t _ => some (0x100008 + 0x1000 * t.toNat)
  | .tgtThresholdWrite _ t _ => some (0x100010 + 0x1000 * t.toNat)
  | .tgtCfgWrite _ t _ => some (0x100040 + 0x1000 * t.toNat)
  | .lodgingWindowWord0Write _ e _ => some (0x200000 + 16 * e.toNat)
  | .lodgingWindowWord1Write _ e _ => some (0x200008 + 16 * e.toNat)
  | .snapshotWindowWrite _ off _ => some (0x400000 + off.toNat)
  | .doorbellPost _ f _ | .doorbellPostKeep _ f _ | .doorbellCancel _ f _ | .doorbellMask _ f _ | .doorbellUnmask _ f _ =>
    some (pageBase f)
  | .fenceDoorbell _ f _ => some (pageBase f + 8)
  | .twoKeyRelease _ f _ => some (pageBase f + 0x10)
  | .msixCtlWrite _ f _ => some (pageBase f + 0x20)
  | .nqConsWrite _ f q _ => some (pageBase f + 0x1000 + 8 * q.toNat)
  | .nqBaseWrite _ f q _ => some (pageBase f + 0x2000 + 8 * q.toNat)
  | .nqCfgWrite _ f q _ => some (pageBase f + 0x3000 + 8 * q.toNat)
  | .msixTableWrite _ f v high _ => some (pageBase f + 0x8000 + 16 * v.toNat + (if high then 8 else 0))
  | _ => none

/-- An earlier access to the aligned word that c reaches waits: c takes effect after it. -/
def State.behind (s : State) (c : Instr) : Bool :=
  match cmdOffset c with
  | some o => s.blocked.any fun b => (cmdOffset b).any fun p => p / 8 = o / 8
  | none => false

/-- A command held back until a commit, a restore or a rebuild ends (05 R116, 13 R297, R298), or an earlier access does. -/
def State.block (s : State) (c : Instr) : State := { s with blocked := s.blocked ++ [c] }

/-- A window access that finds the port: untaken while the port is shut or full; DENY during ZEROISE (16 R354); before READY a register
outside the GLB_ window is answered DEFER, or DENY in FAILED (15 R320). `glb` marks the GLB_ window. Every access admitted
is one that the Tollgate's gate counts (10 R244). -/
def hostEntry (c : Instr) (h : HpAttr) (glb : Bool) (s : State) (f : State → State) : State :=
  if s.portShut || !s.portRoom h || !c.wf then s
  else
    let t := s.takeSlot h (rowBeats c).length true
    if s.np.zRun || s.np.zHold then t.respond h .deny (rowBeats c)
    else if !s.ready && !glb then t.respond h (if s.ts.phase = .failed then .deny else .defer) (rowBeats c)
    else f t

/-- A window access from the port, behind what waits for the same word. -/
def hostAccess (c : Instr) (h : HpAttr) (glb : Bool) (s : State) (f : State → State) : State :=
  hostEntry c h glb s fun t => if t.behind c then t.block c else fin t c (f t)

/-- An access of a window other than the GLB_ window. -/
def hostCmd (c : Instr) (h : HpAttr) (s : State) (f : State → State) : State := hostAccess c h false s f

/-- An access to page fn: Table 09-1 answers at the host port before the page does (09 R213). -/
def pageAccess (s : State) (h : HpAttr) (fn : BitVec 10) (write : Bool) (f : State → State) : State :=
  match (s.fn fn.toNat).state with
  | .absent => s.respond h .deny (if write then [] else [0])
  | .inService => f s
  | .reset => if write then { s with fm.discards := satInc s.fm.discards }.ok h else s.respond h .ok [0]
  | _ => s.respond h .defer (if write then [] else [0])

/-- A step of the clockless core: nothing happens before READY, asleep or during ZEROISE. -/
def coreCmd (c : Instr) (s : State) (f : State → State) : State := if s.live && c.wf then fin s c (f s) else s

/-- The always-on domain and the PHY act: no reset, no ZEROISE. -/
def State.portUp (s : State) : Bool := s.np.porst && !s.np.zRun && !s.np.zHold

/-- A step of the always-on domain and the PHY, which may act before READY. -/
def portCmd (c : Instr) (s : State) (f : State → State) : State := if s.portUp && c.wf then fin s c (f s) else s

/-- Context c is inside another step's access group, or the follow-on that its change would reach is. -/
def State.ctxBusy (s : State) (c : Nat) : Bool :=
  (s.ctxLock c).isSome || s.ctxWait c || ((s.ctx c).folv && s.busy (s.ctx c).follow.toNat)

end Sys2Proof.Machine
end

