-- ==== Sys2Proof/Machine/Ingress.lean ====
section
/-! DEFINITION. Message ingress, the wired front end, internal sources and the lodging and ledger windows (02, 04, 08). -/
namespace Sys2Proof.Machine

/-! ### Answers of message ingress, counted in MI_COUNT (02 Table 02-13) -/

def State.miDeny (s : State) (h : HpAttr) : State := ({ s with mi.denyCnt := satInc s.mi.denyCnt }).deny h
def State.miDefer (s : State) (h : HpAttr) : State := ({ s with mi.deferCnt := satInc s.mi.deferCnt }).respond h .defer []

/-- The next stamp (08 R198). -/
def State.nextStamp (s : State) : Nat := s.mi.nextStamp
def State.stamped (s : State) : State := { s with mi.nextStamp := s.mi.nextStamp + 1 }

/-- A posting write of function fn waits for an access group: later ones wait behind it (08 Table 08-1 Acceptance). -/
def State.fnBlocked (s : State) (fn : BitVec 10) : Bool :=
  s.blocked.any fun c =>
    match c with
    | .doorbellPost _ f _ | .doorbellPostKeep _ f _ | .doorbellCancel _ f _ | .doorbellMask _ f _ | .doorbellUnmask _ f _
    | .fenceDoorbell _ f _ | .twoKeyRelease _ f _ => f = fn
    | _ => false

/-! ### Doorbells (02 R24 to R27) -/

/-- Global identifier of function-relative number n of function fn, if it holds it (02 R20). -/
def State.globalEv (s : State) (fn : BitVec 10) (n : Nat) : Option Nat :=
  let x := s.fn fn.toNat
  if n < x.evCount then some (x.evBase + n) else none

/-- The entry a doorbell names, after the checks of its own fields and number. -/
def State.doorbellEntry (s : State) (fn : BitVec 10) (d : Doorbell) : Option Nat :=
  if d.rsvLow ≠ 0 || d.rsvHigh ≠ 0 || d.event = 0 then none else s.globalEv fn d.event.toNat

/-- A doorbell of operation f on its entry: DENY for its own fields, then DEFER unseeded or while the entry is being restored; c
waits for a commit lock or behind an earlier write of the function. -/
def doorbell (c : Instr) (h : HpAttr) (fn : BitVec 10) (d : Doorbell) (s : State)
    (f : State → Nat → State) : State :=
  match s.doorbellEntry fn d with
  | none => s.miDeny h
  | some e =>
    if s.lt.scramble = 0 then s.miDefer h
    else if (s.side e).wait then s.miDefer h
    else if (s.side e).lock.isSome || s.fnBlocked fn then s.block c
    else f s e

/-- The answer to a post. -/
def State.postAnswer (s : State) (h : HpAttr) (r : PostOut × State) : State :=
  match r.1 with
  | .ok => r.2.ok h
  | .busy => s.miDefer h
  | .refused => s.miDeny h

def State.doorbellPost (s : State) (h : HpAttr) (fn : BitVec 10) (d : Doorbell) : State :=
  doorbell (.doorbellPost h fn d) h fn d s fun s e =>
    s.stamped.postAnswer h (s.stamped.post
      { payload := some d.payload, nomerge := d.nomerge, stamp := some (.function fn, s.nextStamp) } e)

def State.doorbellPostKeep (s : State) (h : HpAttr) (fn : BitVec 10) (d : Doorbell) : State :=
  doorbell (.doorbellPostKeep h fn d) h fn d s fun s e =>
    s.stamped.postAnswer h (s.stamped.post
      { payload := none, nomerge := d.nomerge, stamp := some (.function fn, s.nextStamp) } e)

def State.doorbellCancel (s : State) (h : HpAttr) (fn : BitVec 10) (d : Doorbell) : State :=
  doorbell (.doorbellCancel h fn d) h fn d s fun s e => (s.cancel e).2.ok h

def State.doorbellMask (s : State) (h : HpAttr) (fn : BitVec 10) (d : Doorbell) : State :=
  doorbell (.doorbellMask h fn d) h fn d s fun s e => (s.maskSet e).ok h

def State.doorbellUnmask (s : State) (h : HpAttr) (fn : BitVec 10) (d : Doorbell) : State :=
  doorbell (.doorbellUnmask h fn d) h fn d s fun s e => (s.maskClear e).ok h

/-! ### Fences (02 R28, 08 R201) -/

/-- Post the fence event of a held fence; a post that neither lodges nor merges settles the fence. -/
def State.releaseFence (s : State) (k : HeldFence) : State :=
  let s := { s with mi.fences := s.mi.fences.filter (· ≠ k) }
  match s.globalEv k.fn 0 with
  | some e => (s.post { payload := some (k.tag.setWidth 36), stamp := some (.function k.fn, k.stamp) } e).2
  | none => s

def State.fenceDoorbell (s : State) (h : HpAttr) (fn : BitVec 10) (v : Word) : State :=
  match (if fld v 12 52 = 0 then s.globalEv fn 0 else none) with
  | none => s.miDeny h
  | some e =>
    if s.lt.scramble = 0 || (s.mi.fences.any fun k => k.fn = fn) then s.miDefer h
    else if (s.side e).wait then s.miDefer h
    else if (s.side e).lock.isSome || s.fnBlocked fn then s.block (.fenceDoorbell h fn v)
    else if (s.entry e).state ≠ .idle then s.miDefer h
    else
      let k : HeldFence := ⟨fn, fld v 0 12, s.nextStamp⟩
      let t := { s.stamped with mi.fences := s.mi.fences ++ [k] }.ok h
      if t.unsettledBefore (.function fn) k.stamp then t else t.releaseFence k

/-- The fence of function fn that is held and may be released now. -/
def State.fenceReady (s : State) (fn : BitVec 10) : Option HeldFence :=
  match s.mi.fences.find? fun k => k.fn = fn with
  | some k =>
    let e := (s.fn fn.toNat).evBase
    if s.unsettledBefore (.function fn) k.stamp || s.busy e then none else some k
  | none => none

/-! ### Two-key releases (04 R97, R99) -/

def State.twoKeyRelease (s : State) (h : HpAttr) (fn : BitVec 10) (v : Word) : State :=
  let x := s.fn fn.toNat
  let n := (fld v 0 12).toNat
  if fld v 24 40 ≠ 0 || x.ctxCount ≤ n then s.miDeny h
  else if s.lt.scramble = 0 then s.miDefer h
  else if s.ctxBusy (x.ctxBase + n) || s.fnBlocked fn then s.block (.twoKeyRelease h fn v)
  else (s.twoKey (x.ctxBase + n) (fld v 12 12) h.init).ok h

/-! ### Engine records (02 R29, R30, 16 R350) -/

/-- The payload that a record lodges (02 Table 02-4). -/
def recPayload (v : Word) : BitVec 36 := fld v 32 24 ++ fld v 24 8 ++ fld v 20 4

/-- A record that cannot name an entry. -/
def recBad (v : Word) : Bool := (fld v 0 17).toNat < msgBase || fld v 17 3 ≠ 0 || fld v 56 8 ≠ 0

/-- Raise ENG_ACK: the record is taken. -/
def State.engAck (s : State) (ch : BitVec 4) : State := s.modChan ch.toNat fun x => { x with ack := true, held := none }

/-- Withhold ENG_ACK. -/
def State.engHold (s : State) (ch : BitVec 4) (v : Word) : State := s.modChan ch.toNat fun x => { x with held := some v }

/-- Present a record; the first presentation of one that waits is counted. Under a commit lock it is presented again after the
commit (05 R116). -/
def State.engPresent (s : State) (ch : BitVec 4) (v : Word) (first : Bool) : State :=
  let cfg := s.chCfg ch.toNat
  let e := (fld v 0 17).toNat
  let drop (s : State) : State := ({ s with mi.engDiscard := satInc s.mi.engDiscard }).engAck ch
  if !cfg.enable || recBad v then drop s
  else if (s.side e).lock.isSome then
    (if first then (s.engHold ch v).block (.engineRecord ch v) else s.engHold ch v)
  else
    let q : PostReq := { payload := some (recPayload v), sens := if cfg.sens then some cfg.cls else none,
                         stamp := some (.channel ch, s.nextStamp) }
    match s.stamped.post q e with
    | (.ok, t) => t.engAck ch
    | (.refused, _) => drop s
    | (.busy, _) =>
      ({ s with mi.engWait := if first then satInc s.mi.engWait else s.mi.engWait }).engHold ch v

/-! ### Wired lines and internal sources (02 R21 to R23, R31) -/

/-- A change of line n, active before as `was`, posts (02 R22). -/
def State.wirePosts (s : State) (n : Nat) (was : Bool) : Bool :=
  s.wf.enabled && s.lineActive n && (if bit s.wf.level n then (s.entry (0x40 + n)).state = .idle else !was)

/-- The post of line n waits in its latch. -/
def State.wireLatch (s : State) (n : Nat) : State := { s with wf.pend := setBit s.wf.pend n true }

/-- The sampler sees the input change: the post that the line's mode gives (02 R22). A line whose entry is inside another
access group waits in its latch. -/
def State.wireEdge (s : State) (n : Nat) (was : Bool) : State :=
  if !s.wirePosts n was then s
  else if s.busy (0x40 + n) then s.wireLatch n
  else s.wirePost n

/-- A pending internal post is presented again, with the detail of its latest occurrence. -/
def State.pendingRepost (s : State) (src : Nat) : State :=
  match tget none s.lt.srcPend src with
  | some d => s.internal src d.toNat
  | none => s

/-! ### The lodging window (02 R44) -/

/-- Record a rejection in LODG_REJECT. -/
def State.lodgReject (s : State) (e : Nat) (code : BitVec 4) : State :=
  if s.lt.reject.valid then { s with lt.reject.overflow := true }
  else { s with lt.reject := { s.lt.reject with event := BitVec.ofNat 17 e, code := code, valid := true } }

/-- The code with which a write of word 0 is rejected, if it is. -/
def State.windowCode (s : State) (e : Nat) (v : Word) (x : Entry) : Option (BitVec 4) :=
  let st := (s.entry e).state
  if st ≠ .idle && st ≠ .faulted then some 1
  else if (fld v 0 4).toNat > 1 then some 2
  else match s.setupFault x with
    | some c => if c = 9 && fld v 61 3 ≠ 0 then some 8 else some c
    | none => if fld v 61 3 ≠ 0 then some 8 else none

def State.lodgWord1 (s : State) (h : HpAttr) (e : Nat) (v : Word) : State :=
  { s with lt.word1 := tset none s.lt.word1 e (some v) }.ok h

def State.lodgWord0 (s : State) (h : HpAttr) (e : Nat) (v : Word) : State :=
  if s.busy e then s.block (.lodgingWindowWord0Write h (BitVec.ofNat 17 e) v)
  else
    let old := s.entry e
    let w1 := (tget none s.lt.word1 e).getD old.word1
    let x := { entryOfWords .idle v w1 with run := false, function := old.function, merges := old.merges }
    let s := { s with lt.word1 := tset none s.lt.word1 e none }
    match s.windowCode e v x with
    | some c => (s.lodgReject e c).deny h
    | none =>
      if fld v 0 4 = 1 then (s.lodge .window 0 e x none).ok h
      else (s.change (some .window) 0 e x).ok h

/-! ### The ledger window (04 R101) -/

/-- Record a rejection in LEDG_REJECT. -/
def State.ledgReject (s : State) (c : Nat) (code : BitVec 4) : State :=
  if s.lg.reject.valid then { s with lg.reject.overflow := true }
  else { s with lg.reject := { s.lg.reject with context := BitVec.ofNat 12 c, code := code, valid := true } }

/-- The reserved bits of context word w (04 Table 04-1). -/
def ctxReserved (w : Nat) : Word :=
  let from_ (n : Nat) : Word := BitVec.allOnes 64 <<< n
  match w with
  | 0 => from_ 54 | 1 => from_ 56 | 2 => from_ 31 | 3 => from_ 60 | 4 => from_ 8 | 5 => from_ 50 | 6 => from_ 36 | _ => from_ 0

/-- Word w as held for context c, else as the context has it. -/
def State.ledgWord (s : State) (c w : Nat) : Word :=
  (tget none s.lg.held (8 * c + w)).getD ((s.ctx c).word (s.nextOf (s.ctx c)) w)

/-- The code with which a write of word 0 is rejected, if it is. -/
def State.ledgCode (s : State) (c : Nat) (v : Word) (x : Ctx) : Option (BitVec 4) :=
  if (s.ctx c).state = .opened then some 1
  else if fld v 0 2 = 3 then some 2
  else if x.state = .opened && x.folv && (s.entry x.follow.toNat).state ≠ .idle then some 3
  else if v &&& ctxReserved 0 ≠ 0 ||
      ((List.range 7).any fun i => s.ledgWord c (i + 1) &&& ctxReserved (i + 1) ≠ 0) then some 4
  else none

def State.ledgHeld (s : State) (h : HpAttr) (c w : Nat) (v : Word) : State :=
  { s with lg.held := tset none s.lg.held (8 * c + w) (some v) }.ok h

/-- A window write of word 0 installs it with the held words (04 R101). The EPOCH written is the one installed: with STATE FREE it replaces the
EPOCH that R81 keeps, and with STATE OPEN it does not advance: DESIGN CHOICE (notes/assumptions/54.md). -/
def State.ledgWord0 (s : State) (h : HpAttr) (c : Nat) (v : Word) : State :=
  let old := s.ctx c
  let x := { ctxOfWords (fun w => if w = 0 then v else s.ledgWord c w) with version := old.version, owner := old.owner }
  let x := if x.state = .free then x.free else x
  if (s.ctxLock c).isSome || s.ctxWait c || (x.folv && s.busy x.follow.toNat) ||
      (old.folv && s.busy old.follow.toNat) then
    s.block (.ledgerWindowWord0Write h (BitVec.ofNat 12 c) v)
  else
    let code := s.ledgCode c v x
    let s := { s with lg.held := trange none s.lg.held (8 * c) 8 fun _ _ => none }
    match code with
    | some k => (s.ledgReject c k).deny h
    | none =>
      let act : FollowAct :=
        if x.state = .opened && x.folv then .gate (if x.armed && x.count = 0 then .heldTwokey else .heldJoin)
        else if old.state = .faulted && old.folv && x.state ≠ .opened then .unhold
        else .none
      (s.applyCtx c ⟨x, act⟩ none).ok h

end Sys2Proof.Machine
end

