-- ==== Sys2Proof/Machine/Targets.lean ====
section
/-! DEFINITION. Target pages, target groups, timeouts and held placements: claim, complete and what ends an offer (03, 08 R199,
12 R283). -/
namespace Sys2Proof.Machine

/-! ### Claim and complete (03 R63 to R67) -/

/-- What TGT_CLAIM returns where nothing is claimed. -/
def emptyClaim : Word := 0xFFFFFF

/-- The EVENT value that names candidate c (12 Table 12-2). -/
def State.candName (s : State) (c : Nat) : Nat :=
  if c < nEntries then c
  else match s.vis c with
    | some v => v.event.toNat + 2 ^ 17 * v.home.toNat + 2 ^ 19
    | none => 0xFFFFFE

/-- Record candidate c as held by target t from now on. -/
def State.hold (s : State) (t c : Nat) : State :=
  s.modTarget t fun g =>
    { g with held := g.held ++ [⟨c, s.gl.time, if c < nEntries then g.svcTmo else 0, false⟩] }

/-- Target t claims the candidate it offers. -/
def State.claim (s : State) (t : Nat) : Word × State :=
  match (s.target t).offered with
  | none => (emptyClaim, s)
  | some c =>
    if c < nEntries then
      let x := s.entry c
      let data := word [(24, c), (36, x.payload.toNat), (1, b2n (x.merges ≠ 0)), (1, b2n (s.side c).replaced)]
      let s := (s.putEntry (some .claim) t c { x with state := .claimed }).modSide c
        fun d => { d with holder := some (BitVec.ofNat 8 t) }
      (data, (s.hold t c).settle t)
    else match s.vis c with
      | some v =>
        let f := (Config.visitorFlags s.free).toNat
        let data := word [(24, s.candName c), (36, v.payload.toNat), (2, f)]
        let s := (s.leaveRank t c).setVisitor (c - nEntries)
          (some { v with state := .claimed, holder := some (BitVec.ofNat 8 t) })
        (data, (((s.report v 2).hold t c).settle t).draw)
      | none => (emptyClaim, s)

/-- The offer of target t waits for another step's group. -/
def State.offerBusy (s : State) (t : Nat) : Bool :=
  match (s.target t).offered with | some c => s.candBusy c | none => false

/-- Agent k serves target t: the host's claims and completes are denied (15 R330). -/
def State.agentAt (s : State) (t : Nat) : Bool := (List.range 2).any fun k => (s.dloop k).en && (s.dloop k).target.toNat = t

/-- The held event of target t that EVENT value n names. -/
def State.heldNamed (s : State) (t n : Nat) : Option HeldEv := (s.target t).held.find? fun h => s.candName h.cand = n

/-- Record a stray complete (03 Table 03-9). -/
def State.strayComplete (s : State) (t n : Nat) : State :=
  ({ s with rn.strayCnt := satInc s.rn.strayCnt }).modTarget t fun g =>
    if g.stray then { g with strayOvf := true }
    else { g with stray := true, strayEv := BitVec.ofNat 17 n, strayWide := n > 0x1FFFF }

/-- A visitor leaves its room with the final report st (12 R284). -/
def State.finalReport (s : State) (v : Visitor) (st : Nat) : State :=
  (s.report v st).setVisitor (4096 * v.home.toNat + v.room.toNat) none

/-- The holder t completes held candidate c. -/
def State.completeCand (s : State) (t c : Nat) : State :=
  if c < nEntries then s.complete t c
  else
    let s := match s.vis c with | some v => s.finalReport v 4 | none => s
    (s.modTarget t fun g => { g with held := g.held.filter fun h => h.cand ≠ c }).settle t

/-- An earlier claim of target t waits for an access group (03 R64). -/
def State.claimBlocked (s : State) (t : Nat) : Bool :=
  s.blocked.any fun c => match c with | .tgtClaim _ u => u.toNat = t | _ => false

/-- A read of TGT_CLAIM. A claim that finds another waiting at the target waits behind it (03 R64, 08 R197). -/
def State.tgtClaim (s : State) (h : HpAttr) (t : Nat) : State :=
  if s.agentAt t then s.respond h .deny [0]
  else if !(s.target t).enable then s.respond h .ok [emptyClaim]
  else if s.offerBusy t || s.claimBlocked t then s.block (.tgtClaim h (BitVec.ofNat 8 t))
  else
    let r := s.claim t
    r.2.respond h .ok [r.1]

/-- A write of TGT_COMPLETE. -/
def State.tgtComplete (s : State) (h : HpAttr) (t : Nat) (v : Word) : State :=
  let n := (fld v 0 24).toNat
  if s.agentAt t || fld v 24 40 ≠ 0 then s.deny h
  else if n = 0xFFFFFF then s.ok h
  else match s.heldNamed t n with
    | none => (s.strayComplete t n).ok h
    | some e =>
      if s.candBusy e.cand then s.block (.tgtComplete h (BitVec.ofNat 8 t) v) else (s.completeCand t e.cand).ok h

/-! ### Configuration (03 R60, R61, R79) -/

/-- Place the orphans of every group that may choose target t (03 R51), the groups in ascending number: DESIGN CHOICE, the spec gives no
order among groups (notes/assumptions/54.md). -/
def State.placeOrphansAt (s : State) (t : Nat) : State :=
  (s.rn.groups.filter fun p => bit p.2.mask t && p.2.orphans ≠ []).foldl (fun s p => s.placeOrphans p.1) s

/-- What a change of whether target t may be offered events brings. -/
def State.retarget (s : State) (t : Nat) : State :=
  let s := s.settle t
  if s.enabled t then s.placeOrphansAt t else s

def State.tgtThreshold (s : State) (h : HpAttr) (t : Nat) (v : Word) : State :=
  ((s.modTarget t fun g => { g with threshold := fld v 0 12 }).settle t).ok h

def State.tgtCfg (s : State) (h : HpAttr) (t : Nat) (v : Word) : State :=
  ((s.modTarget t fun g => { g with enable := bit v 0, holdLimit := fld v 1 6, away := bit v 7 }).retarget t).ok h

def State.grpCfg (s : State) (h : HpAttr) (g : Nat) (v : Word) : State :=
  ((s.modGroup g fun x => { x with policy := if fld v 0 2 = 3 then x.policy else fld v 0 2 }).placeOrphans g).ok h

def State.grpMask (s : State) (h : HpAttr) (g k : Nat) (v : Word) : State :=
  let put (m : BitVec 256) : BitVec 256 :=
    (m &&& ~~~((BitVec.allOnes 64).setWidth 256 <<< (64 * k))) ||| (v.setWidth 256 <<< (64 * k))
  ((s.modGroup g fun x => { x with mask := put x.mask }).placeOrphans g).ok h

/-! ### Held placements (08 R199) -/

/-- Every earlier posting of held placement p's sources has settled. -/
def State.placementSettled (s : State) (p : HeldPlacement) : Bool := p.reqs.all fun r => !s.unsettledBefore r.1 r.2

/-- Settled placement p, held behind the placements `before`, is first at each of its sources. Two placements that come each first at one
source go in the order in which they were held (DESIGN CHOICE, notes/assumptions/53.md). -/
def State.placementFree (s : State) (before : List HeldPlacement) (p : HeldPlacement) : Bool :=
  s.placementSettled p && s.rn.heldPl.all fun q =>
    if q = p then true
    else if before.contains q then !stampBefore true q.reqs p.reqs
    else !stampBefore false q.reqs p.reqs || stampBefore true p.reqs q.reqs

/-- The held placement of event e may go to its target: it is free, or, where settled placements wait for each other in a ring, it is
the first of them. -/
def State.placementReady (s : State) (e : Nat) : Bool :=
  let before (n : Nat) : List HeldPlacement := s.rn.heldPl.takeWhile fun h => h.event ≠ n
  match s.rn.heldPl.find? fun h => h.event = e with
  | none => false
  | some p => s.placementFree (before e) p ||
    (before e = [] && s.rn.heldPl.all fun q => s.placementSettled q && !s.placementFree (before q.event) q)

/-- Release the held placement of event e. -/
def State.releasePlacement (s : State) (e : Nat) : State :=
  ({ s with rn.heldPl := s.rn.heldPl.filter fun h => h.event ≠ e }).place e none

/-! ### Timeouts (03 R68 to R73) -/

/-- Time since a, in units of 1,024 ns, saturating (03 Table 03-4). -/
def State.tmoAge (s : State) (a : Word) : BitVec 20 := BitVec.ofNat 20 (min (s.age a / 1024) 0xFFFFF)

/-- An offer timeout of own event e at target t, its offer begun at a: the record, the re-offer and the new placement. The next candidate
is offered before the event is placed again: DESIGN CHOICE, 03 R68 gives no order (notes/assumptions/54.md). -/
def State.fireOffer (s : State) (t e : Nat) (a : Word) : State :=
  let x := s.entry e
  let r : TmoRec := ⟨BitVec.ofNat 17 e, false, BitVec.ofNat 8 t, x.tmode = 1, false, s.tmoAge a⟩
  let away := (s.target t).away
  let s := { s with rn.offerQ := s.rn.offerQ ++ [r], rn.offerCnt := satInc s.rn.offerCnt }
  let s := ((s.reoffer t e x true).place e (if away then some t else none)).settle t
  s.internal srcOfferTmo e

/-- A service timeout of event e held by t since a. -/
def State.fireService (s : State) (t e : Nat) (a : Word) : State :=
  let x := s.entry e
  let r : TmoRec := ⟨BitVec.ofNat 17 e, true, BitVec.ofNat 8 t, x.tmode = 1, x.state = .claimedRepost, s.tmoAge a⟩
  let s := { s with rn.svcQ := s.rn.svcQ ++ [r], rn.svcCnt := satInc s.rn.svcCnt }
  let s := s.modTarget t fun g => { g with held := g.held.map fun h => if h.cand = e then { h with fired := true } else h }
  s.internal srcServiceTmo e

/-- The offer of target t is overdue: its own event and when it began. -/
def State.offerOverdue (s : State) (t : Nat) : Option (Nat × Word) :=
  let g := s.target t
  match g.offered with
  | some e => if e < nEntries && g.offerLim ≠ 0 && 16 * g.offerLim.toNat < s.age g.offerAt then some (e, g.offerAt) else none
  | none => none

/-- The claim of event e is overdue: its holder and when it began. -/
def State.serviceOverdue (s : State) (e : Nat) : Option (Nat × Word) :=
  match (s.side e).holder with
  | none => none
  | some t => match (s.target t.toNat).held.find? fun h => h.cand = e with
    | some h => if h.limit ≠ 0 && !h.fired && 1024 * h.limit.toNat < s.age h.since then some (t.toNat, h.since) else none
    | none => none

def State.offerExpiry (s : State) (t : Nat) : State :=
  match s.offerOverdue t with
  | some (e, a) =>
    if s.busy e then s
    else if s.rn.offerQ.length < 128 then s.fireOffer t e a
    else
      let k : HeldTmo := ⟨e, BitVec.ofNat 8 t, a⟩
      if s.rn.heldOff.contains k then s else { s with rn.heldOff := s.rn.heldOff ++ [k] }
  | none => s

def State.serviceExpiry (s : State) (e : Nat) : State :=
  match s.serviceOverdue e with
  | some (t, a) =>
    if s.rn.svcQ.length < 128 then s.fireService t e a
    else
      let k : HeldTmo := ⟨e, BitVec.ofNat 8 t, a⟩
      if s.rn.heldSvc.contains k then s else { s with rn.heldSvc := s.rn.heldSvc ++ [k] }
  | none => s

/-- The oldest held offer timeout fires, or is discarded where a claim or another stimulus ended its offer (03 R72, R73). -/
def State.offerHeldRelease (s : State) : State :=
  match s.rn.heldOff with
  | k :: l =>
    if 128 ≤ s.rn.offerQ.length || s.busy k.event then s
    else
      let g := s.target k.target.toNat
      let s := { s with rn.heldOff := l }
      if g.offered = some k.event && g.offerAt = k.since then s.fireOffer k.target.toNat k.event k.since else s
  | [] => s

/-- The oldest held service timeout fires, or is discarded where the claim has ended. -/
def State.serviceHeldRelease (s : State) : State :=
  match s.rn.heldSvc with
  | k :: l =>
    if 128 ≤ s.rn.svcQ.length then s
    else
      let s := { s with rn.heldSvc := l }
      if ((s.target k.target.toNat).held.any fun h => h.cand = k.event && h.since = k.since && !h.fired) then
        s.fireService k.target.toNat k.event k.since
      else s
  | [] => s

end Sys2Proof.Machine
end

