-- ==== Sys2Proof/Machine/Timers.lean ====
section
/-! DEFINITION. What the call list, the curfew unit and the noise source bring about: firings, releases, the jitter pool and the
CONSTANT fallback (04 R87 to R100, 08 R204 to R209, 16 R351). -/
namespace Sys2Proof.Machine

/-! ### The call list -/

def State.boostStep (s : State) (c : Nat) : State :=
  if s.fires c .boost && (s.chain c).all (fun e => !s.busy e) then s.fireBoost c else s

def State.deadline (s : State) (c : Nat) : State := if s.fires c .expiry then s.fireExpiry c else s

def State.windowFires (s : State) (c : Nat) : State := if s.fires c .window then s.fireWindow c else s

/-- Context c is inside another step's access group (05 R116, 13 R297). -/
def State.ctxHeld (s : State) (c : Nat) : Bool := (s.ctxLock c).isSome || s.ctxWait c

/-- The oldest firing held on the expiry queue that no function keeps back fires (04 R96, 09 R228). -/
def State.expHeldRelease (s : State) : State :=
  match s.lg.heldExp.find? fun c => !s.keptBack c with
  | some c =>
    if 256 ≤ s.lg.expQ.length || s.ctxHeld c then s
    else { s with lg.heldExp := s.lg.heldExp.filter (· ≠ c) }.expire c
  | none => s

/-- The oldest firing held on the two-key queue goes on: a window's end, or the record of one that a release has carried out. -/
def State.keyHeldRelease (s : State) : State :=
  if 64 ≤ s.lg.keyQ.length then s
  else match s.lg.heldWin.find? s.keyMayGo with
    | some (c, alone) =>
      let t := { s with lg.heldWin := s.lg.heldWin.erase (c, alone) }
      if alone then t.queueKey c else if s.ctxHeld c then s else t.closeWindow c
    | none => s

/-! ### Curfew releases (08 R205) -/

/-- Hold a is released before hold b: ascending R, then LODGE order. -/
def State.holdBefore (s : State) (a b : Hold) : Bool :=
  let ra := s.releaseAt a
  let rb := s.releaseAt b
  if ra = rb then a.order < b.order else reached rb ra

/-- Entry e's release instant is reached, and no reached release comes before it. -/
def State.curfewDue (s : State) (e : Nat) : Option Hold :=
  match s.holdOf e with
  | some h =>
    if reached s.now (s.releaseAt h) &&
        (s.cf.holds.all fun k => k.event = e || !reached s.now (s.releaseAt k) || !s.holdBefore k h) then some h
    else none
  | none => none

/-- The Curfew release of entry e. -/
def State.curfewRelease (s : State) (e : Nat) : State :=
  match s.curfewDue e with
  | some h =>
    if s.busy e || (s.entry e).state ≠ .heldCurfew then s
    else
      let s := { s with cf.released := satInc s.cf.released, cf.fallRel := if h.mark then satInc s.cf.fallRel else s.cf.fallRel }
      s.apply (some .curfew) 0 e { s.entry e with state := .posted }
  | none => s

/-! ### Noise (08 R208, R209, 16 R351) -/

/-- Every held entry receives the fallback mark. -/
def State.markHolds (s : State) : State := { s with cf.holds := s.cf.holds.map fun h => { h with mark := true } }

/-- The block wants 32 more jitter bits. -/
def State.wantBits (s : State) : Bool := s.live && !s.fallback && s.cf.pool.length < 16

/-- RNG_JREQ, which its domain's clamp holds at 0 (14 R309). -/
def State.jreqUp (s : State) : Bool := !s.cf.jack && s.powered 19 && (s.cf.jreq || s.wantBits)

/-- A health failure of the jitter stream with its detail. -/
def State.healthFail (s : State) (detail : Nat) : State :=
  let s := { s with cf.noiseLost := true, cf.pool := [], cf.used := 0, cf.equalRun := 0 }
  let s := s.markHolds
  if s.awake then s.internal srcRngHealth detail
  else { s with lt.srcPend := tset none s.lt.srcPend srcRngHealth (some (BitVec.ofNat 24 detail)) }

/-- RNG_KREQ: raised in RNG_WAIT once the source is ready, and held until the handshake completes (16 R351, 15 R325). -/
def State.kreqUp (s : State) : Bool :=
  s.powered 16 && (s.cf.kreq || (s.ts.phase = .rngWait && s.cf.ready && !s.cf.fail))

/-- A key-grade handshake in progress goes on; its bits are to be discarded if drop is set. -/
def State.kreqHold (s : State) (drop : Bool) : State :=
  { s with cf.kreq := s.kreqUp, cf.kdrop := s.cf.kdrop || (drop && s.kreqUp) }

/-- A jitter handshake delivers v: discarded under the fallback, where RNG_FAIL has risen meanwhile, and on the way down (16 R351, 14 R310). -/
def State.jitter (s : State) (v : BitVec 32) : State :=
  if !s.jreqUp then s
  else
    let keep := s.live && !s.fallback && !s.cf.jdrop
    let s := { s with cf.jreq := false, cf.jdrop := false, cf.jack := true }
    if !keep then s
    else
      let run := if s.cf.equalRun ≠ 0 && v = s.cf.lastWord then s.cf.equalRun + 1 else 1
      let s := { s with cf.lastWord := v, cf.equalRun := run }
      if run = 4 then ({ s with cf.repeats := satInc s.cf.repeats }).healthFail 2
      else if s.cf.pool.length < 16 then { s with cf.pool := s.cf.pool ++ [v] } else s

def State.rngFailRise (s : State) : State :=
  if s.cf.fail then s
  else { s.kreqHold true with cf.jreq := s.jreqUp, cf.jdrop := s.jreqUp, cf.fail := true }.healthFail 1

def State.rngFailFall (s : State) : State := { s with cf.fail := false }

def State.rngReadyRise (s : State) : State :=
  if s.cf.ready then s
  else
    let s := { s with cf.ready := true }
    if s.awake then s.internal srcRngReady 0 else { s with lt.srcPend := tset none s.lt.srcPend srcRngReady (some 0) }

def State.rngReadyFall (s : State) : State :=
  if s.cf.ready then { s.kreqHold false with cf.jreq := s.jreqUp, cf.ready := false }.markHolds else s

/-- A write of 1 to NOISE_LOST (08 Table 08-9). -/
def State.noiseClear (s : State) : State := if s.cf.ready && !s.cf.fail then { s with cf.noiseLost := false } else s

end Sys2Proof.Machine
end

