-- ==== Sys2Proof/Machine/Digest.lean ====
section
/-! DEFINITION. SHA-256, over which the store identity is computed (05 R126). -/
namespace Sys2Proof.Machine

/-- The 64 round constants. -/
def shaK : List Nat :=
  [0x428a2f98, 0x71374491, 0xb5c0fbcf, 0xe9b5dba5, 0x3956c25b, 0x59f111f1, 0x923f82a4, 0xab1c5ed5,
   0xd807aa98, 0x12835b01, 0x243185be, 0x550c7dc3, 0x72be5d74, 0x80deb1fe, 0x9bdc06a7, 0xc19bf174] ++
  [0xe49b69c1, 0xefbe4786, 0x0fc19dc6, 0x240ca1cc, 0x2de92c6f, 0x4a7484aa, 0x5cb0a9dc, 0x76f988da,
   0x983e5152, 0xa831c66d, 0xb00327c8, 0xbf597fc7, 0xc6e00bf3, 0xd5a79147, 0x06ca6351, 0x14292967] ++
  [0x27b70a85, 0x2e1b2138, 0x4d2c6dfc, 0x53380d13, 0x650a7354, 0x766a0abb, 0x81c2c92e, 0x92722c85,
   0xa2bfe8a1, 0xa81a664b, 0xc24b8b70, 0xc76c51a3, 0xd192e819, 0xd6990624, 0xf40e3585, 0x106aa070] ++
  [0x19a4c116, 0x1e376c08, 0x2748774c, 0x34b0bcb5, 0x391c0cb3, 0x4ed8aa4a, 0x5b9cca4f, 0x682e6ff3,
   0x748f82ee, 0x78a5636f, 0x84c87814, 0x8cc70208, 0x90befffa, 0xa4506ceb, 0xbef9a3f7, 0xc67178f2]

/-- The initial hash value. -/
def shaInit : List (BitVec 32) :=
  [0x6a09e667, 0xbb67ae85, 0x3c6ef372, 0xa54ff53a, 0x510e527f, 0x9b05688c, 0x1f83d9ab, 0x5be0cd19]

/-- The message schedule, newest word first, extended by n words. -/
def shaExtend : Nat → List (BitVec 32) → List (BitVec 32)
  | 0, w => w
  | n + 1, w =>
    let g (i : Nat) : BitVec 32 := w.getD i 0
    let s0 := (g 14).rotateRight 7 ^^^ (g 14).rotateRight 18 ^^^ (g 14) >>> 3
    let s1 := (g 1).rotateRight 17 ^^^ (g 1).rotateRight 19 ^^^ (g 1) >>> 10
    shaExtend n ((s1 + g 6 + s0 + g 15) :: w)

/-- One round on the eight working variables. -/
def shaRound (v : List (BitVec 32)) (kw : BitVec 32) : List (BitVec 32) :=
  match v with
  | [a, b, c, d, e, f, g, h] =>
    let t1 := h + (e.rotateRight 6 ^^^ e.rotateRight 11 ^^^ e.rotateRight 25) + ((e &&& f) ^^^ (~~~e &&& g)) + kw
    let t2 := (a.rotateRight 2 ^^^ a.rotateRight 13 ^^^ a.rotateRight 22) + ((a &&& b) ^^^ (a &&& c) ^^^ (b &&& c))
    [t1 + t2, a, b, c, d + t1, e, f, g]
  | _ => v

/-- Big-endian 32-bit words of bytes. -/
def beWords : List Byte → List (BitVec 32)
  | a :: b :: c :: d :: l => (a ++ b ++ c ++ d) :: beWords l
  | _ => []

/-- One block of 64 bytes. -/
def shaBlock (h : List (BitVec 32)) (blk : List Byte) : List (BitVec 32) :=
  let w := (shaExtend 48 (beWords blk).reverse).reverse
  let v := (List.zip shaK w).foldl (fun v p => shaRound v (BitVec.ofNat 32 p.1 + p.2)) h
  List.zipWith (· + ·) h v

/-- The n blocks of a padded message. -/
def shaBlocks : Nat → List (BitVec 32) → List Byte → List (BitVec 32)
  | 0, h, _ => h
  | n + 1, h, l => shaBlocks n (shaBlock h (l.take 64)) (l.drop 64)

/-- The SHA-256 digest as eight words. -/
def sha256 (m : List Byte) : List (BitVec 32) :=
  let n := m.length
  let zeros := (119 - n % 64) % 64
  let p := m ++ [0x80] ++ List.replicate zeros 0 ++ (leBytes 8 (8 * n)).reverse
  shaBlocks (p.length / 64) shaInit p

/-- Bytes 0 to 5 of a digest, byte 0 most significant. -/
def digest48 (m : List Byte) : BitVec 48 :=
  match sha256 m with
  | a :: b :: _ => a ++ fld b 16 16
  | _ => 0

end Sys2Proof.Machine
end

