-- ==== Sys2Proof/Machine/Store.lean ====
section
/-! DEFINITION. The error log, the itinerary store with its copies and identity, TRIM, and the bank arbiters (05 R105, R124 to
R133, 13 R295, R303, 14 R311). -/
namespace Sys2Proof.Machine

/-! ### Errors (13 R295, R303) -/

/-- The detail of ERR_CORRECTED and ERR_UNCORR (13 Table 13-3). -/
def errDetail (arr loc : Nat) : Nat := pack [(5, arr), (19, loc)]

/-- A corrected word: counted and posted. -/
def State.errCorrected (s : State) (arr loc : Nat) : State :=
  ({ s with er.corrected := satInc s.er.corrected }).internal srcErrCorrected (errDetail arr loc)

/-- An uncorrectable word: counted, logged with its outcome, and posted (13 R303). -/
def State.errUncorr (s : State) (arr loc : Nat) (outcome : BitVec 3) : State :=
  let s := { s with er.uncorr := satInc s.er.uncorr }
  let s := if s.er.valid then { s with er.overflow := true }
    else
      { s with
        er.array := BitVec.ofNat 5 arr, er.location := BitVec.ofNat 19 loc, er.outcome := outcome, er.valid := true }
  s.internal srcErrUncorr (errDetail arr loc)

/-- Count an item restored or rebuilt. -/
def State.countRestored (s : State) : State := { s with er.restored := satInc s.er.restored }

/-! ### The register words that hold RWL fields (05 R126) -/

def ChCfg.bits (c : ChCfg) : Word := word [(1, b2n c.enable), (1, b2n c.sens), (3, c.cls.toNat)]
def CurveStep.bits (c : CurveStep) : Word := word [(36, c.slack.toNat), (12, c.floor.toNat), (1, b2n c.valid)]
def CurfewClass.bits (c : CurfewClass) : Word :=
  word [(2, c.mode.toNat), (5, c.qlog.toNat), (20, c.minHold.toNat), (4, c.jbits.toNat), (12, c.jstep.toNat)]

/-- CUR_PAIR_CFG with PORT, AUTO and ZPROMOTE taken as 0 (17 Worked example). -/
def State.pairCfgLocked (s : State) : Word := word [(1, b2n s.cu.pairEn), (2, 0), (2, s.cu.partner.toNat)]

/-- The hashed byte string of R126. -/
def State.identBytes (s : State) : List Byte :=
  let regs : List Word :=
    ((List.range 16).map fun n => (s.chCfg n).bits) ++ ((List.range 4).map fun n => (s.keyWindow n).setWidth 64) ++
    ((List.range 128).map fun n => (s.curve (n / 8) (n % 8)).bits) ++ ((List.range 8).map fun n => (s.crfClass n).bits) ++
    [s.pairCfgLocked]
  ((List.range 4096).map fun i => leBytes 5 (s.storeWord i).toNat).flatten ++
    (regs.map fun v => leBytes 8 v.toNat).flatten ++ [0x10]

/-! ### Store copies (05 R124, R125, R127) -/

def setBit16 (v : BitVec 16) (k : Nat) (b : Bool) : BitVec 16 := setBit v k b

/-- Word i as copy j holds it. -/
def State.copyWord (s : State) (j i : Nat) : BitVec 36 := (tget none s.st.own (4096 * j + i)).getD (s.storeWord i)

/-- Copy j holds word i uncorrectably. -/
def State.copyBad (s : State) (j i : Nat) : Bool := s.st.bad.contains (j, i)

/-- Copy j holds word i and can be read. -/
def State.copyGood (s : State) (j i : Nat) : Bool :=
  bit s.st.storeOk j && !bit s.st.reloading j && !s.copyBad j i && !s.noCopy j

/-- The copy from which copy k is reloaded for word i: the next in ascending order that reads it. -/
def State.reloadSource (s : State) (k i : Nat) : Option Nat :=
  ((List.range 15).map fun n => (k + 1 + n) % 16).find? fun j => s.copyGood j i

/-- Where copy j is reloaded from; itself while no copy can serve. -/
def State.sourceOf (s : State) (j : Nat) : Nat := (tget 0 s.st.reloadSrc j).toNat / 16 % 16

/-- Copy j may come to be read though it cannot be now: it is gated with its words retained, or is being reloaded from another. -/
def State.copyLater (s : State) (j i : Nat) : Bool :=
  !s.copyBad j i && ((bit s.st.storeOk j && s.noCopy j) || (bit s.st.reloading j && s.sourceOf j ≠ j))

/-- A reload of copy k for word i, from copy j; from k itself it waits for a copy that can serve. -/
def State.beginReload (s : State) (k j i : Nat) : State :=
  { s with
    st.reloading := setBit s.st.reloading k true, st.storeOk := setBit s.st.storeOk k false,
    st.reloadSrc := tset 0 s.st.reloadSrc k (BitVec.ofNat 24 (pack [(4, k), (4, j), (12, i)])) }

/-- The detail of ERR_CORRECTED and ERR_UNCORR for word i of copy k (13 R302). -/
def copyLoc (k i : Nat) : Nat := k + 16 * i

/-- Word i is uncorrectable in every copy: recorded once, and logged as lost (05 R127, 13 R303). A second such word leaves LOST_WORD at the
first: DESIGN CHOICE (notes/assumptions/58.md). -/
def State.loseWord (s : State) (k i : Nat) : State :=
  let s := if s.st.lost then s else { s with st.lost := true, st.lostWord := BitVec.ofNat 12 i }
  s.errUncorr 5 (copyLoc k i) 3

/-- An uncorrectable word i of copy k: the copy is reloaded from one that reads the word, which counts as corrected (13 R294), or the reload
waits for such a copy, or the word is lost in every copy. STORE_RELOADED is posted as the reload begins: DESIGN CHOICE
(notes/assumptions/58.md). -/
def State.storeBad (s : State) (k i : Nat) : State :=
  let known := s.copyBad k i
  let s := { s with st.bad := if known then s.st.bad else s.st.bad ++ [(k, i)] }
  if bit s.st.reloading k then s
  else match s.reloadSource k i with
    | some j => ((s.beginReload k j i).errCorrected 5 (copyLoc k i)).internal srcReloaded (pack [(4, k), (4, j), (12, i)])
    | none =>
      if (List.range 16).any fun j => s.copyLater j i then s.beginReload k k i
      else if known then s else s.loseWord k i

/-- A reload that waits for a copy that can serve finds one. -/
def State.findSource (s : State) (k : Nat) : State :=
  let i := (tget 0 s.st.reloadSrc k).toNat / 256
  if !bit s.st.reloading k || s.sourceOf k ≠ k then s
  else match s.reloadSource k i with
    | some j => if s.copyBad k i then
        ((s.beginReload k j i).errCorrected 5 (copyLoc k i)).internal srcReloaded (pack [(4, k), (4, j), (12, i)])
      else s.beginReload k j i
    | none => s

def State.findSources (s : State) : State := (List.range 16).foldl (fun s k => s.findSource k) s

/-- A scrub read of word i of copy k. -/
def State.storeScrub (s : State) (k i : Nat) (unc : Bool) : State :=
  if !bit s.st.storeOk k || s.noCopy k then s
  else if unc then s.storeBad k i
  else s.errCorrected 5 (copyLoc k i)

/-- A run that met a bad word runs again from its last commit point once the copy is reloaded. -/
def Run.restart (x : Run) : Run :=
  { x with
    phase := .running, pc := if x.check.atStart then x.entryPc else x.check.pc, regs := x.check.regs, z := x.check.z,
    c := x.check.c, n := x.check.n, f := x.check.f, rndv := x.check.rndv, stack := x.check.stack, steps := 0,
    budget := x.check.budget, effects := match x.check.own with | some e => [e] | none => [] }

/-- A reload of copy k from another ends: it holds what that copy holds, its uncorrectable words too. -/
def State.reloadEnd (s : State) (k : Nat) : State :=
  let j := s.sourceOf k
  if !bit s.st.reloading k || j = k then s
  else
    let own := (s.st.own.filter fun p => p.1 / 4096 = j).foldl (fun t p => tset none t (4096 * k + p.1 % 4096) p.2)
      (s.st.own.filter fun p => p.1 / 4096 ≠ k)
    let bad : List (Nat × Nat) :=
      (s.st.bad.filter fun b => b.1 ≠ k) ++ (s.st.bad.filter fun b => b.1 = j).map fun b => (k, b.2)
    ({ s with
      st.reloading := setBit s.st.reloading k false, st.storeOk := setBit s.st.storeOk k true,
      st.reloadSrc := tset 0 s.st.reloadSrc k 0, st.own := own,
      st.bad := bad }).findSources

/-- A write of IT_STOREi; no effect once sealed (00 R9). It reaches every copy that has power: a gated copy keeps its own word. -/
def State.storeWrite (s : State) (i : Nat) (v : BitVec 36) : State :=
  if s.locked then s
  else
    let off := (List.range 16).filter fun j => s.noCopy j
    { s with
      st.words := tset 0 s.st.words i v,
      st.own := (List.range 16).foldl (fun t j =>
        tset none t (4096 * j + i) (if off.contains j && s.copyWord j i ≠ v then some (s.copyWord j i) else none)) s.st.own,
      st.bad := s.st.bad.filter fun b => b.2 ≠ i || off.contains b.1 }

/-- The seal is written. -/
def State.sealStart (s : State) : State := if s.locked then s else { s with st.sealing := true }

/-- A copy whose words are not those of the others is reloaded: at once, or, while it has no power, when it comes back (05 R125). -/
def State.reloadDiffering (s : State) (k : Nat) : State :=
  match s.st.own.find? fun p => p.1 / 4096 = k with
  | none => s
  | some p =>
    if bit s.st.reloading k then s
    else if s.noCopy k then { s with st.storeOk := setBit s.st.storeOk k false }
    else s.storeBad k (p.1 % 4096)

/-- Every copy has been read. Copies with an uncorrectable or differing word are reloaded; once none is being reloaded the identity is
computed and the store is sealed (05 R125). -/
def State.sealEnd (s : State) : State :=
  if !s.st.sealing then s
  else
    let s := s.st.bad.foldl (fun s b => s.storeBad b.1 b.2) s
    let s := (List.range 16).foldl (fun s k => s.reloadDiffering k) s
    if s.st.reloading ≠ 0 then s
    else { s with st.sealing := false, st.sealed := true, st.ident := digest48 s.identBytes }

/-! ### TRIM (14 R311) -/

def State.trimMin (s : State) : Nat := max 1 (min 16 s.np.trimMin.toNat)
def State.trimIdle (s : State) : Nat := 64 * max 1 s.np.trimIdle.toNat
/-- TRIM_WAKE: 0 acts as 1. A value of 65 to 127, of which the spec says nothing, is stored and acts as 64: DESIGN CHOICE
(notes/assumptions/54.md). -/
def State.trimWake (s : State) : Nat := max 1 (min 64 s.np.trimWake.toNat)

/-- Raise the switch of cluster k's domain. -/
def State.switchCluster (s : State) (k : Nat) : State :=
  { s with np.pswEn := setBit s.np.pswEn k true, np.ungateDue := setBit s.np.ungateDue k false }

/-- Power a gated cluster again: its switch is raised, once the supply that is being removed is seen down (16 R355). -/
def State.ungate (s : State) (k : Nat) : State :=
  if !s.isGated k then s
  else if bit s.np.pswGood k && !bit s.np.pswEn k then { s with np.ungateDue := setBit s.np.ungateDue k true }
  else s.switchCluster k

/-- Gated clusters whose adopter queue holds TRIM_WAKE tasks are powered again. -/
def State.trimWakes (s : State) : State :=
  s.np.gated.foldl (fun s g =>
    match s.adopter g.toNat with
    | some j => if s.trimWake ≤ (s.queue j).tasks.length then s.ungate g.toNat else s
    | none => s) s

/-- Power is back at gated cluster k: it runs, after a reload where its copy was not retained (05 R127). There is no failing word to choose
the source by: the next copy that reads word 0 serves, and the reload waits while none does: DESIGN CHOICE (notes/assumptions/58.md). -/
def State.ungated (s : State) (k : Nat) : State :=
  if !s.isGated k then s
  else
    let kept := bit s.np.ret k
    let s := { s with
      np.gated := s.np.gated.filter (· ≠ BitVec.ofNat 4 k), np.off := setBit s.np.off k false,
      np.ret := setBit s.np.ret k false, np.retEn := setBit s.np.retEn k false }
    if kept && bit s.st.storeOk k then s.findSources
    else ((s.beginReload k ((s.reloadSource k 0).getD k) 0).findSources)

/-- Cluster k has no task and no run. -/
def State.clusterIdle (s : State) (k : Nat) : Bool :=
  (s.queue k).tasks = [] && (s.allRuns.all fun p => p.1.cluster.toNat ≠ k) &&
  ((List.range 5).all fun p => (s.porter k p).task0.isNone && (s.porter k p).task1.isNone)

/-- Note when cluster k becomes idle or busy. -/
def State.touchIdle (s : State) (k : Nat) : State :=
  if !s.clusterIdle k then { s with np.idleSince := tset none s.np.idleSince k none }
  else if (tget none s.np.idleSince k).isSome then s
  else { s with np.idleSince := tset none s.np.idleSince k (some s.gl.time) }

/-- Cluster k may be gated now: TRIM is in force, it has been idle long enough, and it is the highest-numbered such cluster. -/
def State.mayGate (s : State) (k : Nat) : Bool :=
  let ripe (j : Nat) : Bool :=
    !s.isGated j && s.clusterIdle j &&
    (match tget none s.np.idleSince j with | some a => s.trimIdle ≤ s.age a | none => false)
  s.np.trimEn && s.trimMin < 16 - s.np.gated.length && ripe k &&
    (List.range 16).all fun j => j ≤ k || !ripe j

/-- Domain d has lost its supply: its arrays are in retention where NP_RET_EN asks for it (14 Table 14-12). -/
def State.supplyDown (s : State) (d : Nat) : State :=
  { s with np.off := setBit s.np.off d true, np.ret := setBit s.np.ret d (bit s.np.retEn d) }

/-- Gate cluster k: its switch is lowered, with its copy in retention if TRIM_RET is set (16 R355). Its banks are adopted from then on, and the
adopter's tasks may ask for it, or for another gated cluster, at once. -/
def State.gateCluster (s : State) (k : Nat) : State :=
  if !s.mayGate k then s
  else
    let t := { s with
      np.gated := s.np.gated ++ [BitVec.ofNat 4 k], np.retEn := setBit s.np.retEn k s.np.trimRet,
      np.pswEn := setBit s.np.pswEn k false,
      st.storeOk := if s.np.trimRet then s.st.storeOk else setBit s.st.storeOk k false }
    (if bit s.np.pswGood k then t else t.supplyDown k).trimWakes

/-! ### Run queues (05 R105) -/

/-- The first of banks k and k + 16 with a dispatchable head, in the turn's order: its number and the head. -/
def State.nextBank (s : State) (k : Nat) : Option (Nat × Nat) :=
  let order := if (s.queue k).turn then [k + 16, k] else [k, k + 16]
  match order.find? fun b => s.dlist b ≠ [] with
  | some b => match s.dlist b with | e :: _ => some (b, e) | [] => none
  | none => none

/-- Banks k and k + 16 feed their queue: the head of a list becomes a task. -/
def State.take (s : State) (k : Nat) : State :=
  match s.adopter k, s.nextBank k with
  | some j, some (b, e) =>
    if s.gl.hold || 64 ≤ (s.queue j).tasks.length then s
    else
      let s := s.modDlist b (·.drop 1)
      let s := s.modQueue k fun q => { q with turn := b = k }
      let s := s.modQueue j fun q => { q with tasks := q.tasks ++ [e], ticket := q.ticket + 1 }
      ((s.modSide e fun d => { d with task := true }).trimWakes).touchIdle j
  | _, _ => s

/-! ### Arbiters (05 R128 to R133) -/

/-- The level of slot n at arbiter a. -/
def State.slotLevel (s : State) (a n : Nat) : Nat := ((s.levels a).toNat / 4 ^ n) % 4

/-- The place of slot n in arbiter a's ranks, 0 highest. -/
def State.slotRank (s : State) (a n : Nat) : Nat := (s.ranks a).findIdx (· = n)

/-- Slot m is granted before slot n. -/
def State.slotBefore (s : State) (a m n : Nat) : Bool :=
  s.slotLevel a n < s.slotLevel a m || (s.slotLevel a m = s.slotLevel a n && s.slotRank a m < s.slotRank a n)

/-- The winner among the requesting slots. -/
def State.arbWinner (s : State) (a : Nat) (slots : List Nat) : Option Nat :=
  slots.find? fun n => slots.all fun m => m = n || s.slotBefore a n m

/-- The turn count of a losing slot among the losers (05 R131). -/
def State.turnOf (s : State) (a n : Nat) (losers : List Nat) : Nat := losers.countP fun m => m ≠ n && s.slotBefore a m n

/-- A Porter whose wait earned turn count t takes a queued task into its other context (05 R109). -/
def State.switchOn (s : State) (r : RunRef) (t : Nat) : State :=
  let k := r.cluster.toNat
  let p := s.runPorter r
  let other : BitVec 1 := r.ctx + 1
  let free := (s.run { r with ctx := other }).isNone && (if other = 0 then p.task0 else p.task1).isNone
  if s.pa.switchTurn = 0 || t < s.pa.switchTurn.toNat || p.exec ≠ r.ctx || p.state ≠ .active || !free || s.gl.hold then s
  else match (s.queue k).tasks with
    | e :: l =>
      let s := s.modQueue k fun q => { q with tasks := l, ticket := q.ticket + 1 }
      s.modPorter k r.porter.toNat fun y =>
        { y with
          exec := other, switched := some r.ctx, task0 := if other = 0 then some e else y.task0,
          task1 := if other = 1 then some e else y.task1 }
    | [] => s

/-- The requests at arbiter a in arrival order: those that wait, and those that come now (05 R128, R129). -/
def State.arbPresent (s : State) (a : Nat) (reqs : List ArbReq) : List ArbWait :=
  (s.ab.waits.filter fun x => x.arb.toNat = a) ++
    reqs.map fun q => ⟨BitVec.ofNat 6 a, q.slot, q.run, q.len, s.gl.time, false, 0⟩

/-- The slots that present a request, each once. -/
def arbSlots (ws : List ArbWait) : List Nat := (List.range 24).filter fun n => ws.any fun x => x.slot.toNat = n

/-- What waits after slot w's first request has been granted, each loser with its turn count: a request behind the one its slot
presents has 23 (05 R131). -/
def State.arbLosers (s : State) (a w : Nat) (ws : List ArbWait) : List ArbWait :=
  let slots := (arbSlots ws).filter (· ≠ w)
  let turn (x : ArbWait) (l : List ArbWait) : ArbWait :=
    { x with
      turn := if x.slot.toNat = w || l.any fun y => y.slot = x.slot then 23
        else BitVec.ofNat 5 (s.turnOf a x.slot.toNat slots) }
  (ws.zipIdx.filter fun p => p.2 ≠ ws.findIdx fun x => x.slot.toNat = w).map fun p => turn p.1 (ws.take p.2)

/-- A decision of arbiter a at a group boundary, among the requests present: the running grant is over, the winner's group is granted and
its slot drops to the lowest rank, and the others wait. -/
def State.arbGrant (s : State) (a : Nat) (reqs : List ArbReq) : State :=
  let ws := s.arbPresent a reqs
  match s.arbWinner a (arbSlots ws) with
  | none => { s with ab.holds := tset none s.ab.holds a none }
  | some w =>
    let waits := s.arbLosers a w ws
    let s := { s with
      ab.ranks := tset (List.range 24) s.ab.ranks a ((s.ranks a).filter (· ≠ w) ++ [w]),
      ab.holds := tset none s.ab.holds a
        ((ws.find? fun x => x.slot.toNat = w).map fun x => ⟨x.slot, x.run, x.len, s.gl.time⟩),
      ab.waits := (s.ab.waits.filter fun x => x.arb.toNat ≠ a) ++ waits }
    waits.foldl (fun s x => match x.run with | some r => s.switchOn r x.turn.toNat | none => s) s

/-- An access of run context r waits at an arbiter or is being made. -/
def State.askedFor (s : State) (r : RunRef) : Bool :=
  s.ab.waits.any (fun w => w.run = some r) || s.ab.holds.any fun p => match p.2 with | some h => h.run = some r | none => false

/-- The context that the Porter left returns once its access has completed (05 R109). -/
def State.contextReturn (s : State) (k p : Nat) : State :=
  match (s.porter k p).switched with
  | some c =>
    if s.askedFor ⟨BitVec.ofNat 4 k, BitVec.ofNat 3 p, c⟩ then s
    else
      let has : Bool := (s.run ⟨BitVec.ofNat 4 k, BitVec.ofNat 3 p, c⟩).isSome ||
        (if c = 0 then (s.porter k p).task0 else (s.porter k p).task1).isSome
      s.modPorter k p fun y => { y with exec := if has then c else y.exec, switched := none }
  | none => s

/-- Record a report in ARB_LOG. -/
def State.arbLog (s : State) (a n : Nat) (starve : Bool) : State :=
  if s.ab.logValid then { s with ab.logOvf := true }
  else
    { s with
      ab.logArb := BitVec.ofNat 6 a, ab.logSlot := BitVec.ofNat 5 n, ab.logKind := starve, ab.logValid := true }

/-- The grant of arbiter a is cut off: the group has had no effect, and its holder asks for it again, a Porter for the phase A or the group
of phase B that was cut off, which its run therefore does not pass (05 R132). -/
def State.cutoff (s : State) (a : Nat) : State :=
  match tget none s.ab.holds a with
  | some h =>
    if s.ab.holdMax = 0 || s.age h.since ≤ max 16 s.ab.holdMax.toNat then s
    else
      let again : ArbWait := ⟨BitVec.ofNat 6 a, h.slot, h.run, h.len, s.gl.time, false, 23⟩
      let s := { s with
        ab.holds := tset none s.ab.holds a none, ab.cutoff := satInc s.ab.cutoff, ab.waits := s.ab.waits ++ [again] }
      (s.arbLog a h.slot.toNat false).internal srcArbCutoff (pack [(6, a), (5, h.slot.toNat)])
  | none => s

/-- A wait that exceeds the limit and has not been reported. -/
def State.starved (s : State) (w : ArbWait) : Bool :=
  !w.reported && s.ab.starveNs ≠ 0 && s.ab.starveNs.toNat < s.age w.since

/-- Report wait w once (05 R133). -/
def State.reportStarve (s : State) (w : ArbWait) : State :=
  let s := { s with
    ab.starve := satInc s.ab.starve, ab.waits := s.ab.waits.map fun x => if x = w then { x with reported := true } else x }
  (s.arbLog w.arb.toNat w.slot.toNat true).internal srcArbStarve (pack [(6, w.arb.toNat), (5, w.slot.toNat)])

def State.starveExpiry (s : State) (a n : Nat) : State :=
  match s.ab.waits.find? fun w => w.arb.toNat = a && w.slot.toNat = n && s.starved w with
  | some w => s.reportStarve w
  | none => s

/-- A write of ARB_CFG: the new limits, with every wait already beyond STARVE_NS reported. -/
def State.arbCfg (s : State) (v : Word) : State :=
  let s := { s with ab.holdMax := fld v 0 12, ab.starveNs := fld v 12 20 }
  (s.ab.waits.filter s.starved).foldl (fun s w => s.reportStarve w) s

end Sys2Proof.Machine
end

