-- ==== Sys2Proof/Machine/Egress.lean ====
section
/-! DEFINITION. Egress: notification records, MSI-X messages, their queue and the port (09 R222 to R225, 16 R344 to R347). -/
namespace Sys2Proof.Machine

/-- Writes the egress queue holds (16 R347). -/
def egressRoom : Nat := 256

/-- Add a write: to the queue where it has room and nothing waits before it, else behind the writes that wait. -/
def State.enqueue (s : State) (w : EgWrite) : State :=
  if s.ep.spill = [] && s.ep.queue.length < egressRoom then { s with ep.queue := s.ep.queue ++ [w] }
  else { s with ep.spill := s.ep.spill ++ [w] }

/-- Where run context r still has writes that found no room. -/
def State.spilled (s : State) (r : RunRef) : Bool := s.ep.spill.any fun w => w.run = some r

/-- The notification record of slot x.prod (09 Table 09-7). -/
def record (x : NQueue) (body : BitVec 48) (ev q : Nat) : BitVec 128 :=
  BitVec.ofNat 128 (pack [(48, body.toNat), (16, x.prod.toNat), (17, ev), (3, 0), (12, q), (31, 0), (1, b2n x.phase)])

/-- Queue x after a record: PROD advances, PHASE inverts at each wrap, the reserved slot is used. -/
def NQueue.produced (x : NQueue) : NQueue :=
  let p := x.prod + 1
  { x with
    prod := p, phase := if p.toNat % 2 ^ x.logsize.toNat = 0 then !x.phase else x.phase, reserved := x.reserved - 1 }

/-- A committed NQW of function f's entry e on queue q (09 R222). -/
def State.notify (s : State) (f e q : Nat) (body : BitVec 48) (r : RunRef) : State :=
  let fn := s.fn f
  let x := fn.nq q
  let ev := if f = 0 then e else e - fn.evBase
  let a := x.base + BitVec.ofNat 64 (16 * (x.prod.toNat % 2 ^ x.logsize.toNat))
  (s.modFn f fun y => y.modNq q NQueue.produced).enqueue
    ⟨false, BitVec.ofNat 10 f, a, record x body ev q, BitVec.ofNat 11 q, none, some r⟩

/-- Vector v of function f is masked. -/
def Fn.vecMasked (x : Fn) (v : Nat) : Bool := x.fmask || bit (x.vec v).ctl 0

/-- Send the message of vector v. -/
def State.msixSend (s : State) (f v : Nat) (r : Option RunRef) : State :=
  (s.modFn f fun y => y.modVec v fun x => { x with pending := false }).enqueue
    ⟨true, BitVec.ofNat 10 f, 0, 0, BitVec.ofNat 11 v, none, r⟩

/-- A committed MSIX of function f (09 R225). -/
def State.message (s : State) (f v : Nat) (r : RunRef) : State :=
  let x := s.fn f
  if !x.enable then { s with fm.drops := satInc s.fm.drops }
  else if x.vecMasked v then s.modFn f fun y => y.modVec v fun u => { u with pending := true }
  else s.msixSend f v (some r)

/-- Send every pending message of function f that nothing masks any more. -/
def State.sendPending (s : State) (f : Nat) : State :=
  let x := s.fn f
  if !x.enable then s
  else (x.vectors.filter fun p => p.2.pending && !x.vecMasked p.1).foldl (fun s p => s.msixSend f p.1 none) s

/-- A write as it leaves: a message reads its vector now (09 R225, 16 Table 16-4). -/
def State.issued (s : State) (w : EgWrite) : EgWrite :=
  if w.msix then
    let v := (s.fn w.fn.toNat).vec w.index.toNat
    let a := v.addr &&& ~~~(3 : Word)
    { w with addr := a, data := if bit a 2 then v.data.setWidth 128 <<< 32 else v.data.setWidth 128 }
  else w

/-- The head of the egress queue, where the partner has acknowledged its group (12 R289). -/
def State.egressHead (s : State) : Option EgWrite :=
  match s.ep.queue with
  | w :: _ => match w.group with
    | some g => if s.mirrorOn && s.groupWaits g then none else some w
    | none => some w
  | [] => none

/-- The head write is taken by the SoC under identifier id; a waiting write moves up. -/
def State.egressTake (s : State) (id : BitVec 5) : State :=
  match s.egressHead with
  | none => s
  | some w =>
    if 32 ≤ s.ep.outstanding.length || s.ep.outstanding.any (fun o => o.1 = id) then s
    else
      { s with
        ep.queue := s.ep.queue.drop 1 ++ s.ep.spill.take 1, ep.spill := s.ep.spill.drop 1,
        ep.outstanding := s.ep.outstanding ++ [(id, s.issued w)] }

/-- The SoC answers write id; DENY and the reserved codes count as DENY (16 R346). -/
def State.egressAnswer (s : State) (id : BitVec 5) (code : BitVec 2) : State :=
  match s.ep.outstanding.find? fun o => o.1 = id with
  | none => s
  | some (_, w) =>
    let s := { s with ep.outstanding := s.ep.outstanding.filter fun o => o.1 ≠ id }
    if code = 0 then s
    else
      let s := { s with ep.denied := satInc s.ep.denied }
      if s.ep.logValid then { s with ep.logOvf := true }
      else { s with ep.logFn := w.fn, ep.logKind := w.msix, ep.logIndex := w.index, ep.logValid := true }

end Sys2Proof.Machine
end

