-- ==== Sys2Proof/Machine/Flags.lean ====
section
/-! DEFINITION. The flag computations of Lequin: results with C, Z and N, and condition codes (06 R147 to R149). -/
namespace Sys2Proof.Machine

/-- A w-bit result and its C. -/
structure Alu where
  res : Nat
  c   : Bool
deriving DecidableEq, Repr

/-- a + b + c (06 Table 06-7). -/
def aluAdd (w a b c : Nat) : Alu := ⟨(a + b + c) % 2 ^ w, 2 ^ w ≤ a + b + c⟩

/-- a − b − c with the borrow (06 Table 06-7). -/
def aluSub (w a b c : Nat) : Alu := ⟨(2 ^ (w + 1) + a - b - c) % 2 ^ w, a < b + c⟩

def aluAnd (a b : Nat) : Alu := ⟨a &&& b, false⟩
def aluOr (a b : Nat) : Alu := ⟨a ||| b, false⟩
def aluXor (a b : Nat) : Alu := ⟨a ^^^ b, false⟩
def aluAndn (w a b : Nat) : Alu := ⟨a &&& (2 ^ w - 1 - b % 2 ^ w), false⟩
def aluMin (a b : Nat) : Alu := ⟨if b < a then b else a, b < a⟩
def aluMax (a b : Nat) : Alu := ⟨if a < b then b else a, a < b⟩

/-- SHL by s (06 Table 06-8). -/
def aluShl (w a s : Nat) : Alu :=
  if s = 0 then ⟨a, false⟩ else if s ≤ w then ⟨(a * 2 ^ s) % 2 ^ w, a.testBit (w - s)⟩ else ⟨0, false⟩

/-- SHR by s. -/
def aluShr (w a s : Nat) : Alu :=
  if s = 0 then ⟨a, false⟩ else if s ≤ w then ⟨a / 2 ^ s, a.testBit (s - 1)⟩ else ⟨0, false⟩

/-- SAR by s: the sign bit fills. -/
def aluSar (w a s : Nat) : Alu :=
  let top := a.testBit (w - 1)
  let fill (n : Nat) : Nat := if top then 2 ^ w - 2 ^ (w - n) else 0
  if s = 0 then ⟨a, false⟩
  else if s ≤ w then ⟨a / 2 ^ s + fill s, a.testBit (s - 1)⟩
  else ⟨fill w, top⟩

/-- ROL by s mod w; C is bit 0 of the result where the rotation is not 0. -/
def aluRol (w a s : Nat) : Alu :=
  let n := s % w
  let r := (a * 2 ^ n) % 2 ^ w + a / 2 ^ (w - n)
  if n = 0 then ⟨a, false⟩ else ⟨r, r.testBit 0⟩

/-- Z, N and C after a w-bit result. -/
def Run.setZnc (x : Run) (w : Nat) (r : Alu) : Run := { x with z := r.res = 0, n := r.res.testBit (w - 1), c := r.c }

/-- Condition code k holds (06 Table 06-6). -/
def Run.cond (x : Run) (k : BitVec 4) : Bool :=
  match k.toNat with
  | 0 => x.z
  | 1 => !x.z
  | 2 => x.c
  | 3 => !x.c
  | 4 => x.n
  | 5 => !x.n
  | 6 => x.f
  | 7 => !x.f
  | 8 => !x.c && !x.z
  | 9 => x.c || x.z
  | 10 => x.rndv
  | 11 => !x.rndv
  | _ => true

end Sys2Proof.Machine
end

