-- ==== Sys2Proof/Machine/Operands.lean ====
section
/-! DEFINITION. The operand forms of Lequin: registers, pairs, groups of registers, the instruction word, and which field values an
instruction allows (06 R138, R144 to R146, 07 Table 07-2). -/
namespace Sys2Proof

/-! ### Fields -/

/-- S1:S2 as 24 bits: LDI24's value. -/
def LqFields.s12 (f : LqFields) : BitVec 24 := f.c ++ f.b ++ f.a ++ f.k

/-- S1[11:4]: SWITCH's count. -/
def LqFields.count (f : LqFields) : Nat := f.b.toNat + 16 * f.c.toNat

/-- Fields an instruction does not use are 0. -/
structure Uses where
  i : Bool := false
  x : Bool := false
  d : Bool := false
  c : Bool := false
  b : Bool := false
  a : Bool := false
  k : Bool := false
deriving DecidableEq, Repr

def LqFields.only (f : LqFields) (u : Uses) : Bool :=
  (u.i || !f.i) && (u.x || !f.x) && (u.d || f.d = 0) && (u.c || f.c = 0) && (u.b || f.b = 0) && (u.a || f.a = 0) &&
    (u.k || f.k = 0)

/-- A field names a pair: bit 3 clear. -/
def isPair (v : BitVec 4) : Bool := v.toNat < 8

/-- Format FA (06 Table 06-4). -/
def LqFields.okFA (f : LqFields) : Bool :=
  f.only { i := true, x := true, d := true, a := true, b := !f.i, k := f.i } &&
    (!f.x || (isPair f.d && isPair f.a && isPair f.b))

/-- Format FC. -/
def LqFields.okFC (f : LqFields) : Bool :=
  f.only { i := true, x := true, a := true, b := !f.i, k := f.i } && (!f.x || (isPair f.a && isPair f.b))

/-- Format FN. -/
def LqFields.okFN (f : LqFields) : Bool := f.only {}

/-- Format FT. -/
def LqFields.okFT (f : LqFields) : Bool := f.only { k := true }

/-- An instruction that uses only A as a pair. -/
def LqFields.okPairA (f : LqFields) : Bool := f.only { a := true } && isPair f.a

/-- An instruction that uses only A. -/
def LqFields.okA (f : LqFields) : Bool := f.only { a := true }

/-- A if I = 0, K if I = 1, K at most m. -/
def LqFields.okAorK (f : LqFields) (m : Nat) : Bool := f.only { i := true, a := !f.i, k := f.i } && f.k.toNat ≤ m

/-- The width: 24 for pairs, else 12. -/
def LqFields.width (f : LqFields) : Nat := if f.x then 24 else 12

end Sys2Proof

namespace Sys2Proof.Machine

/-! ### Registers (06 R137, R138) -/

def Run.w (x : Run) (n : Nat) : BitVec 12 := tget 0 x.regs n
def Run.setW (x : Run) (n : Nat) (v : BitVec 12) : Run := { x with regs := tset 0 x.regs n v }

/-- Pair register Dn. -/
def Run.dn (x : Run) (n : Nat) : BitVec 24 := x.w (2 * n + 1) ++ x.w (2 * n)
def Run.setDn (x : Run) (n : Nat) (v : BitVec 24) : Run :=
  (x.setW (2 * n) (fld v 0 12)).setW (2 * n + 1) (fld v 12 12)

/-- Three registers from n, lowest word first: a payload. -/
def Run.three (x : Run) (n : Nat) : BitVec 36 := x.w (n + 2) ++ x.w (n + 1) ++ x.w n

/-- Four registers from n, lowest word first: an instant or a body. -/
def Run.four (x : Run) (n : Nat) : BitVec 48 := x.w (n + 3) ++ x.w (n + 2) ++ x.w (n + 1) ++ x.w n
def Run.setFour (x : Run) (n : Nat) (v : BitVec 48) : Run :=
  (((x.setW n (fld v 0 12)).setW (n + 1) (fld v 12 12)).setW (n + 2) (fld v 24 12)).setW (n + 3) (fld v 36 12)

/-! ### The instruction word (06 Table 06-3) -/

/-- The 36-bit word of opcode op and fields f. -/
def lqWord (op : Nat) (f : LqFields) : BitVec 36 :=
  BitVec.ofNat 36 (pack [(12, f.k.toNat), (4, f.a.toNat), (4, f.b.toNat), (4, f.c.toNat), (4, f.d.toNat), (1, b2n f.x),
    (1, b2n f.i), (6, op)])

/-- The second operand: K, or Wb (12 bits) or Db (24 bits). -/
def Run.opB (x : Run) (f : LqFields) : Nat :=
  if f.i then f.k.toNat else if f.x then (x.dn f.b.toNat).toNat else (x.w f.b.toNat).toNat

/-- The first operand: Wa or Da. -/
def Run.opA (x : Run) (f : LqFields) : Nat := if f.x then (x.dn f.a.toNat).toNat else (x.w f.a.toNat).toNat

/-- Write the result to Wd or Dd. -/
def Run.setD (x : Run) (f : LqFields) (v : Nat) : Run :=
  if f.x then x.setDn f.d.toNat (BitVec.ofNat 24 v) else x.setW f.d.toNat (BitVec.ofNat 12 v)

/-- Wb, or K when I = 1. -/
def Run.wbOrK (x : Run) (f : LqFields) : BitVec 12 := if f.i then f.k else x.w f.b.toNat

/-- Wa, or K when I = 1. -/
def Run.waOrK (x : Run) (f : LqFields) : BitVec 12 := if f.i then f.k else x.w f.a.toNat

/-- The event that pair Da names: none above 0x1_FFFF (07 R166). -/
def Run.eventA (x : Run) (f : LqFields) : Option Nat :=
  let v := (x.dn f.a.toNat).toNat
  if v < nEntries then some v else none

/-- The selectors that STL and CASL write (07 Table 07-2). -/
def stlSel (k : BitVec 12) : Bool := k.toNat ≤ 3 || (5 ≤ k.toNat && k.toNat ≤ 8) || k = 10

end Sys2Proof.Machine
end

