-- ==== Sys2Proof/Machine/Runs.lean ====
section
/-! DEFINITION. Runs: dispatch, the frame every Lequin instruction stands in, the read set and staged views, traps, drops and
re-runs (05 R104 to R123, 06 R137 to R159, 07 R164 to R170). -/
namespace Sys2Proof.Machine

def State.modRun (s : State) (r : RunRef) (f : Run → Run) : State :=
  match s.run r with | some x => s.setRun r (some (f x)) | none => s

def State.modRunPorter (s : State) (r : RunRef) (f : Porter → Porter) : State := s.modPorter r.cluster.toNat r.porter.toNat f

/-! ### Tasks of a Porter -/

def Porter.task (p : Porter) (c : BitVec 1) : Option Nat := if c = 0 then p.task0 else p.task1
def Porter.setTask (p : Porter) (c : BitVec 1) (t : Option Nat) : Porter :=
  if c = 0 then { p with task0 := t, named := setBit p.named 0 false } else { p with task1 := t, named := setBit p.named 1 false }

/-- The task that STEAL names goes into context c (07 R191). -/
def Porter.nameTask (p : Porter) (c : BitVec 1) (e : Nat) : Porter :=
  let q := p.setTask c (some e)
  { q with named := setBit q.named c.toNat true }

/-- The tasks that STEAL named are dropped: they wait on their own lists (17 R366). -/
def Porter.dropNamed (p : Porter) : Porter :=
  { p with
    task0 := if bit p.named 0 then none else p.task0, task1 := if bit p.named 1 then none else p.task1, named := 0 }

/-- Run context r waits at an arbiter for a grant (05 R109, R128). -/
def State.waitsGrant (s : State) (r : RunRef) : Bool := s.ab.waits.any fun w => w.run = some r

/-- The other context of a Porter. -/
def otherCtx (r : RunRef) : RunRef := { r with ctx := r.ctx + 1 }

/-- Cluster k's Porters run: powered and its store copy not being reloaded (05 R127, 14 R311). -/
def State.clusterRuns (s : State) (k : Nat) : Bool := !s.isGated k && !bit s.st.reloading k

/-! ### Locks and reservations -/

/-- Release the commit locks that run r holds on the items of its read set (05 R115). -/
def State.unlock (s : State) (r : RunRef) (x : Run) : State :=
  x.reads.foldl (fun s it =>
    match it.item with
    | .entry e => if (s.side e).lock = some r then s.modSide e fun d => { d with lock := none } else s
    | .ctx c => if s.ctxLock c = some r then s.setCtxLock c none else s) s

/-- Return what a discarded effect reserved: a room or a queue slot (07 R164). -/
def State.unreserve (s : State) (f : BitVec 10) (e : Effect) : State :=
  match e with
  | .fwd _ t room _ _ =>
    s.modPeer (fld t 8 2).toNat fun p => { p with reserved := p.reserved.filter fun m => some m ≠ room }
  | .nqw q _ => s.modFn f.toNat fun y => y.modNq q fun n => { n with reserved := n.reserved - 1 }
  | _ => s

/-- Discard the staged effects of run x but those kept. -/
def State.discard (s : State) (x : Run) (kept : List Effect) : State :=
  (x.effects.filter fun e => !kept.contains e).foldl (fun s e => s.unreserve x.fn e) s

/-- Release the serial token where r holds it or waits for it. -/
def State.releaseToken (s : State) (r : RunRef) : State :=
  { s with
    pa.serialHeld := if s.pa.serialHeld = some r then none else s.pa.serialHeld,
    pa.serialQ := s.pa.serialQ.filter (· ≠ r) }

/-- Clear the hint that the run of context r set (03 R76). -/
def State.clearHint (s : State) (r : RunRef) : State :=
  s.modRunPorter r fun p => match p.hint with
    | some (_, c) => if c = r.ctx then { p with hint := none } else p
    | none => p

/-- The Porter turns to its other context where that holds a run and no return is due. -/
def State.pickExec (s : State) (r : RunRef) : State :=
  if (s.run (otherCtx r)).isSome && (s.runPorter r).switched.isNone then s.modRunPorter r fun p => { p with exec := (otherCtx r).ctx }
  else s

/-- The run of context r is over: token, hint and context are free. -/
def State.endRun (s : State) (r : RunRef) : State :=
  ((((s.releaseToken r).clearHint r).setRun r none).pickExec r).touchIdle r.cluster.toNat

/-- Release the locks of run x and what its staged effects reserved. -/
def State.abandon (s : State) (r : RunRef) (x : Run) : State := (s.unlock r x).discard x []

/-- Run x still holds its entry: it is POSTED with RUN set, and no later dispatch has given it to another run (05 R106, R107). -/
def State.holdsEntry (s : State) (x : Run) : Bool :=
  let e := s.entry x.event
  e.state = .posted && e.run && s.allRuns.all fun p => p.2.event ≠ x.event || p.2.order ≤ x.order

/-- A run is dropped: nothing of it commits, and RUN of the entry that it holds is cleared (05 R107). -/
def State.dropRun (s : State) (r : RunRef) (x : Run) : State :=
  let s := (s.abandon r x).endRun r
  if s.holdsEntry x then s.clearRun x.event else s

/-- A run of a function that is not in service is dropped at SYNCGEN: its entry waits on the function's list (09 R228). -/
def State.dropToWait (s : State) (r : RunRef) (x : Run) : State :=
  let s := s.dropRun r x
  if s.dispatchable x.event then
    (s.modDlist (s.bank x.event) (·.filter (· ≠ x.event))).modFn x.fn.toNat fun y => { y with waitList := y.waitList ++ [x.event] }
  else s

/-! ### Traps (05 R120 to R123) -/

def causeTrap : BitVec 4 := 1
def causeStep : BitVec 4 := 2
def causeEntry : BitVec 4 := 3
def causeReadset : BitVec 4 := 4
def causeEffects : BitVec 4 := 5
def causeStack : BitVec 4 := 6
def causeEncoding : BitVec 4 := 7
def causeStore : BitVec 4 := 8

/-- The trap record of run x. -/
def Run.trapRec (x : Run) (cause : BitVec 4) : TrapRec :=
  ⟨BitVec.ofNat 17 x.event, cause, x.pc, BitVec.ofNat 12 (min x.steps 4095), BitVec.ofNat 2 (min x.conflicts 3), x.serial⟩

/-- Run x traps with a cause. -/
def State.trapRun (s : State) (r : RunRef) (x : Run) (cause : BitVec 4) : State :=
  let e := x.event
  let s := { s with pa.trapCnt := satInc s.pa.trapCnt }
  let s := (s.abandon r x).endRun r
  if !s.holdsEntry x then s
  else if e = srcStepTrap || e = srcItinTrap then
    { (s.setTrapped e true).clearRun e with pa.selfTrap := true }
  else
    let rec_ := x.trapRec cause
    let s := (s.setTrapped e true).clearRun e
    if cause = causeStep then ({ s with lt.stepTraps := s.lt.stepTraps ++ [rec_] }).internal srcStepTrap e
    else ({ s with lt.itinTraps := s.lt.itinTraps ++ [rec_] }).internal srcItinTrap (pack [(17, e), (4, cause.toNat)])

/-! ### Dispatch (05 R106, R108, 06 R139) -/

/-- W0 to W11 of a run of entry e (06 Table 06-1). -/
def startRegs (e : Nat) (x : Entry) : Tbl (BitVec 12) :=
  let w : List (BitVec 12) :=
    [BitVec.ofNat 12 e, BitVec.ofNat 12 (e / 4096), fld x.payload 0 12, fld x.payload 12 12, fld x.payload 24 12, x.priority,
     BitVec.ofNat 12 (pack [(10, x.target.toNat), (2, x.tmode.toNat)]), x.context, x.low, x.function.setWidth 12,
     BitVec.ofNat 12 (pack [(4, x.merges.toNat), (3, x.cls.toNat)]), x.version]
  (w.zipIdx).foldl (fun t p => tset 0 t p.2 p.1) []

/-- A run that begins, its entry as the dispatch read returned it. -/
def newRun (e : Nat) (x : Entry) (order : Nat) (stepmax : Nat) : Run :=
  { event := e, entryPc := x.entryPc, fn := x.function, order := order, pc := x.entryPc, regs := startRegs e x,
    budget := stepmax, reads := [⟨.entry e, x.version, x, {}⟩], ownPay := x.payload,
    check := { budget := stepmax } }

/-- The opcode of a store word. -/
def wordOp (v : BitVec 36) : Nat := v.toNat / 2 ^ 30

/-- A run that begins at its ENTRY_PC traps there unless the word is SYNCGEN; a word its copy has lost is judged after the reload (05
R108). -/
def State.badEntry (s : State) (r : RunRef) (x : Run) : Bool :=
  !s.copyBad r.cluster.toNat x.pc.toNat && wordOp (s.copyWord r.cluster.toNat x.pc.toNat) ≠ 0x3D

/-- The task that a dispatch read of context r would use: one taken into the context, else the head of its cluster's queue
where the Porter's other context holds no task, and no run or one past its DONE (05 R109, R135, 07 R191). -/
def State.nextTask (s : State) (r : RunRef) : Option (Nat × State) :=
  let p := s.runPorter r
  match p.task r.ctx with
  | some e => some (e, s.modRunPorter r fun p => p.setTask r.ctx none)
  | none =>
    let otherRuns : Bool := (p.task (otherCtx r).ctx).isSome || match s.run (otherCtx r) with
      | some y => !(y.phase = .commitDone || y.phase = .egressDone)
      | none => false
    if otherRuns then none
    else match (s.queue r.cluster.toNat).tasks with
      | e :: l => some (e, s.modQueue r.cluster.toNat fun q => { q with tasks := l, ticket := q.ticket + 1 })
      | [] => none

/-- The Porter of context r may begin a run there: the store is sealed (01 R14) and dispatch is not held (17 R366). -/
def State.mayBegin (s : State) (r : RunRef) : Bool :=
  s.st.sealed && (s.runPorter r).state = .active && s.clusterRuns r.cluster.toNat && (s.run r).isNone && !s.gl.hold &&
    !s.waitsGrant r

/-- The dispatch read of context r. -/
def State.dispatch (s : State) (r : RunRef) : State :=
  if !s.mayBegin r then s
  else match s.nextTask r with
  | none => s
  | some (e, t) =>
    if t.busy e then s
    else
      let t := t.modSide e fun d => { d with task := false, taskSeen := false }
      let f := (t.entry e).function.toNat
      if !t.dispatchable e then t.touchIdle r.cluster.toNat
      else if t.shareOf f ≤ t.runsOf f then
        ({ t with fm.defers := satInc t.fm.defers }.modDlist (t.bank e) fun l => l.filter (· ≠ e) ++ [e]).touchIdle
          r.cluster.toNat
      else
        let t := t.setRunBit e
        let x := newRun e (t.entry e) t.pa.order t.gl.stepmax.toNat
        let t := { t with pa.order := t.pa.order + 1 }
        let t := ((t.setRun r (some x)).modRunPorter r fun p => { p with exec := r.ctx }).touchIdle r.cluster.toNat
        if t.badEntry r x then t.trapRun r x causeEntry else t

/-- Cluster j's queue may be stolen from. -/
def State.stealable (s : State) (j : Nat) : Bool :=
  let n := (s.queue j).tasks.length
  (s.pa.stealMin ≠ 0 && min 64 s.pa.stealMin.toNat ≤ n) || (0 < n && (s.activeIn j = 0 || bit s.st.reloading j))

/-- The victim of cluster k's thief for the choice v (05 R110). -/
def State.victim (s : State) (k v : Nat) : Option Nat :=
  ((List.range 16).map fun i => (k + 1 + v + i) % 16).find? fun j => j ≠ k && s.stealable j

/-- An idle Porter steals a task (05 R110 to R112). -/
def State.workSteal (s : State) (r : RunRef) : State :=
  let k := r.cluster.toNat
  let p := s.runPorter r
  if !s.mayBegin r || (p.task r.ctx).isSome || (p.task (otherCtx r).ctx).isSome || (s.queue k).tasks ≠ [] || (s.victim k 0).isNone then s
  else
    let drawn : Option (Nat × State) :=
      if s.fallback then
        some (p.stealCtr.toNat, s.modRunPorter r fun p => { p with stealCtr := p.stealCtr + 1 })
      else if s.poolBits < 4 then none
      else some ((Config.jitterBits s.free).toNat % 16, s.useBits 4)
    match drawn with
    | none => s
    | some (v, t) =>
      match t.victim k v with
      | none => s
      | some j => match (t.queue j).tasks.getLast? with
        | none => s
        | some e =>
          let t := t.modQueue j fun q => { q with tasks := q.tasks.dropLast, ticket := q.ticket + 1 }
          let t := { t with pa.stealCnt := satInc t.pa.stealCnt }
          ((t.modRunPorter r fun p => p.setTask r.ctx (some e)).touchIdle k).touchIdle j

/-! ### Re-runs (05 R117, 06 R140) -/

/-- Run x's own entry may be run again: POSTED, MASK clear, and RUN set by x's own dispatch. -/
def State.ownGood (s : State) (x : Run) : Bool := s.holdsEntry x && !(s.entry x.event).mask

/-- The staged view of an own entry after an own-entry effect (07 R169). -/
def ownView (x : Entry) (e : Effect) : Entry :=
  match e with
  | .offer _ p t m c pay keep =>
    { x with
      state := .queued, priority := p, target := t, tmode := m, payload := if keep then x.payload else pay,
      ctxv := c.isSome || x.ctxv, context := match c with | some n => BitVec.ofNat 12 n | none => x.context }
  | .fwd _ t _ pay keep =>
    { x with state := .queued, target := t, tmode := 3, payload := if keep then x.payload else pay }
  | .cancel _ => { x with state := .idle }
  | .park _ => { x with state := .parked }
  | .post _ pay keep _ => { x with payload := if keep then x.payload else pay }
  | _ => x

/-- The read set with which a segment of run x begins: the own entry as it stands, under a kept own-entry effect. -/
def ownItem (e : Nat) (v : Entry) (own : Option Effect) : ReadItem :=
  ⟨.entry e, v.version, match own with | some f => ownView v f | none => v, {}⟩

/-- Run x as it begins its segment again with its own entry as it stands. A run that begins again from its start begins at the ENTRY_PC
of the entry as re-read: DESIGN CHOICE, 06 R140 names W0 to W11 only (notes/assumptions/56.md). -/
def Run.again (x : Run) (own : Entry) (stepmax : Nat) : Run :=
  let y := { x.restart with
    rerun := true, budget := min x.check.budget stepmax, reads := [ownItem x.event own x.check.own], stlPay := [], latched := [],
    steal := none, ownPay := own.payload }
  if x.check.atStart then
    { y with
      regs := startRegs x.event own, z := false, c := false, n := false, f := false, rndv := false, stack := [],
      entryPc := own.entryPc, pc := own.entryPc }
  else y

/-- Begin the segment of run x again: the own entry is re-read, or the run is dropped. -/
def State.rerun (s : State) (r : RunRef) (x : Run) : State :=
  let s := s.clearHint r
  if !s.ownGood x then s.dropRun r x
  else
    let s := s.discard x (match x.check.own with | some e => [e] | none => [])
    let y := x.again (s.entry x.event) s.gl.stepmax.toNat
    let s := s.setRun r (some y)
    if y.check.atStart && s.badEntry r y then s.trapRun r y causeEntry else s

/-! ### The read set and staged views (05 R114, 07 R165) -/

/-- What reading an item gives: the run with the item in its read set, a full read set, or a wait. -/
inductive ReadRes where
  | got (x : Run) (s : State) (it : ReadItem) | full | wait

/-- Items a read set holds. -/
def readRoom : Nat := 24

/-- Set the commit lock of an item for serialised run r; none where another run holds it. -/
def State.lockItem (s : State) (r : RunRef) (i : Item) : Option State :=
  match i with
  | .entry e => match (s.side e).lock with
    | some q => if q = r then some s else none
    | none => some (s.modSide e fun d => { d with lock := some r })
  | .ctx c => match s.ctxLock c with
    | some q => if q = r then some s else none
    | none => some (s.setCtxLock c (some r))

/-- The item is being restored or rebuilt. -/
def State.itemWaits (s : State) (i : Item) : Bool := match i with | .entry e => (s.side e).wait | .ctx c => s.ctxWait c

/-- The item as a first read finds it. -/
def State.freshItem (s : State) (i : Item) : ReadItem :=
  match i with
  | .entry e => ⟨i, (s.entry e).version, s.entry e, {}⟩
  | .ctx c => ⟨i, (s.ctx c).version, {}, s.ctx c⟩

/-- Read an item through the staged view, adding it to the read set at its first read. -/
def State.readItem (s : State) (r : RunRef) (x : Run) (i : Item) : ReadRes :=
  match x.reads.find? fun it => it.item = i with
  | some it => .got x s it
  | none =>
    if readRoom ≤ x.reads.length then .full
    else if s.itemWaits i then .wait
    else match (if x.serial then s.lockItem r i else some s) with
      | none => .wait
      | some t =>
        let it := s.freshItem i
        .got { x with reads := x.reads ++ [it] } t it

/-- Replace the staged view of an item. -/
def Run.setView (x : Run) (it : ReadItem) : Run := { x with reads := x.reads.map fun j => if j.item = it.item then it else j }

/-- The staged view of an item already read. -/
def Run.view (x : Run) (i : Item) : Option ReadItem := x.reads.find? fun it => it.item = i

def Run.setEntryView (x : Run) (e : Nat) (v : Entry) : Run :=
  { x with reads := x.reads.map fun j => if j.item = .entry e then { j with entry := v } else j }

def Run.setCtxView (x : Run) (c : Nat) (v : Ctx) : Run :=
  { x with reads := x.reads.map fun j => if j.item = .ctx c then { j with ctx := v } else j }

/-! ### What an instruction does -/

/-- The outcome of an instruction whose encoding and budget allow it: on to the next address, a jump, a trap (its step counted or
not), a wait in which nothing changes but what t says, or the end of this run's execution with all done in t. -/
inductive LqOut where
  | cont (x : Run) (t : State) | goto (pc : BitVec 12) (x : Run) (t : State) | trap (cause : BitVec 4) (counted : Bool)
  | hold (t : State) | ended (t : State)

/-- Read an item, then go on. -/
def withItem (r : RunRef) (i : Item) (s0 : State) (x : Run) (s : State) (k : Run → State → ReadItem → LqOut) : LqOut :=
  match s.readItem r x i with
  | .got y t it => k y t it
  | .full => .trap causeReadset false
  | .wait => .hold s0

/-- Effects a segment stages. -/
def effectRoom : Nat := 16

/-- Accept an effect: it is staged and F cleared; a seventeenth traps (07 R164, R170). -/
def accept (x : Run) (t : State) (e : Effect) : LqOut :=
  if effectRoom ≤ x.effects.length then .trap causeEffects false
  else .cont { x with effects := x.effects ++ [e], f := false } t

/-- Refuse an effect: F is set. -/
def refuse (x : Run) (t : State) : LqOut := .cont { x with f := true } t

/-- The own-entry effect of run x among its staged effects (07 R169). -/
def Run.isOwn (x : Run) (e : Effect) : Bool :=
  match e with
  | .offer n _ _ _ _ _ _ | .fwd n _ _ _ _ | .cancel n | .park n | .post n _ _ _ => n = x.event
  | _ => false

def Run.ownEffect (x : Run) : Option Effect := x.effects.find? x.isOwn

/-- A fetch that meets a bad word: a reload, after which the run begins its segment again, or STORE where every copy has lost the word (05
R127). -/
def State.fetchError (s : State) (r : RunRef) (x : Run) : State :=
  let k := r.cluster.toNat
  let t := s.storeBad k x.pc.toNat
  if bit t.st.reloading k then t.setRun r (some { x with phase := .reload }) else t.trapRun r x causeStore

/-- The run of context r, where its Porter may execute an instruction of it now: an access that waits for a grant holds it (05 R109). -/
def State.stepping (s : State) (r : RunRef) : Option Run :=
  if !r.wf then none else
  match s.run r with
  | some x =>
    let p := s.runPorter r
    if s.live && p.state = .active && p.exec = r.ctx && s.clusterRuns r.cluster.toNat && x.phase = .running && !s.waitsGrant r then
      some x
    else none
  | none => none

end Sys2Proof.Machine
end

