-- ==== Sys2Proof/Machine/Basos.lean ====
section
/-! DEFINITION. Basos images: their CRC-64, building one from a function, and reading one (09 R232 to R235). -/
namespace Sys2Proof.Machine

/-! ### CRC-64 of ECMA-182 (09 R234) -/

def crc64Poly : BitVec 64 := 0x42F0E1EBA9EA3693

/-- One bit of the division. -/
def crc64Bit (c : BitVec 64) : BitVec 64 := if c.msb then (c <<< 1) ^^^ crc64Poly else c <<< 1

/-- One byte. -/
def crc64Byte (c : BitVec 64) (b : Byte) : BitVec 64 := iter crc64Bit 8 (c ^^^ (b.setWidth 64 <<< 56))

def crc64 (l : List Byte) : BitVec 64 := l.foldl crc64Byte 0

/-! ### The parts of an image -/

/-- Bytes o to o + n - 1 of a list, as a number. -/
def sliceNat (l : List Byte) (o n : Nat) : Nat := leNat ((l.drop o).take n)

/-- The size of one item of a record type; 0 for a reserved type (09 Table 09-10). -/
def basosSize (ty : Nat) : Nat :=
  match ty with
  | 1 => 32 | 2 => 16 | 3 => 64 | 4 => 24 | 5 => 16 | 6 => 8 | 7 => 8 | _ => 0

/-- A record head: TYPE, 0, COUNT, FIRST (09 R233). -/
def recHead (ty count first : Nat) : List Byte := leBytes 1 ty ++ [0] ++ leBytes 2 count ++ leBytes 4 first

/-- A record, where it has items. -/
def basosRecord (ty first : Nat) (items : List (List Byte)) : List (List Byte) :=
  if items = [] then [] else [recHead ty items.length first ++ items.flatten]

def wordBytes (v : Word) : List Byte := leBytes 8 v.toNat

/-- The entry as an image carries it (09 Table 09-10 TYPE 0x02). -/
def Fn.carryEntry (x : Fn) (v : Entry) : Entry :=
  { v with
    run := false, function := 0, context := if v.ctxv then v.context - BitVec.ofNat 12 x.ctxBase else v.context }

/-- The context as an image carries it, saved at instant t (TYPE 0x03). -/
def Fn.carryCtx (x : Fn) (t : Instant) (v : Ctx) : Ctx :=
  { v with
    owner := 0, follow := if v.folv then v.follow - BitVec.ofNat 17 x.evBase else v.follow,
    deadline := if reached t v.deadline then 0 else v.deadline - t, keyFirst := t - v.keyFirst }

/-- The image omits an entry whose every field but FUNCTION and VERSION is at its reset value (09 R231). -/
def Entry.plain (v : Entry) : Bool := { v with function := 0, version := 0 } = ({} : Entry)

/-- Records of the entries carried: runs of consecutive entries, at most 65,535 to a record. -/
def entryRuns (acc : List (Nat × List (List Byte))) : List (Nat × List Byte) → List (Nat × List (List Byte))
  | [] => acc
  | (i, b) :: l =>
    match acc with
    | (f, is) :: rest =>
      if f + is.length = i && is.length < 65535 then entryRuns ((f, is ++ [b]) :: rest) l else entryRuns ((i, [b]) :: acc) l
    | [] => entryRuns [(i, [b])] l

/-- NQ_CFG of a queue (09 Table 09-24). -/
def NQueue.cfg (q : NQueue) : Word := word [(1, b2n q.enable), (4, q.logsize.toNat), (16, q.prod.toNat), (1, b2n q.phase)]

/-- MSIX_CTL of a function. -/
def Fn.msixCtl (x : Fn) : Word := word [(1, b2n x.enable), (1, b2n x.fmask)]

/-- The 64 pending bits from vector 64 k. -/
def Fn.pending (x : Fn) (k : Nat) : Word := word ((List.range 64).map fun i => (1, b2n (x.vec (64 * k + i)).pending))

/-- The records of function f's image at instant t. -/
def State.basosRecords (s : State) (f : Nat) (t : Instant) : List (List Byte) :=
  let x := s.fn f
  let desc := (s.descriptor f).zipIdx.map fun p =>
    leBytes 2 (if p.2 = 0 then FnState.frozen.code
      else if p.2 = 1 || p.2 = 3 || p.2 = 5 || p.2 = 7 then 0 else p.1.toNat)
  let ents := (s.lt.entries.filter fun p => x.evBase ≤ p.1 && p.1 < x.evBase + x.evCount && !p.2.plain).map fun p =>
    let v := x.carryEntry p.2
    (p.1 - x.evBase, wordBytes v.word0 ++ wordBytes v.word1)
  let ctxs := (List.range x.ctxCount).map fun i =>
    let v := x.carryCtx t (s.ctx (x.ctxBase + i))
    ((List.range 8).map fun w => wordBytes (v.word (.none, 0) w)).flatten
  let qs := (List.range x.nqCount).map fun q =>
    let y := x.nq q
    wordBytes y.base ++ wordBytes y.cfg ++ leBytes 8 y.cons.toNat
  let vs := (List.range x.vecCount).map fun v =>
    let y := x.vec v
    wordBytes y.addr ++ leBytes 4 y.data.toNat ++ leBytes 4 y.ctl.toNat
  let ps := (List.range ((x.vecCount + 63) / 64)).map fun k => wordBytes (x.pending k)
  basosRecord 1 0 [desc.flatten] ++ ((entryRuns [] ents).reverse.map fun r => basosRecord 2 r.1 r.2).flatten ++
    basosRecord 3 0 ctxs ++ basosRecord 4 0 qs ++ basosRecord 5 0 vs ++ basosRecord 6 0 ps ++ basosRecord 7 0 [wordBytes x.msixCtl]

/-- The header of Table 09-9. -/
def State.basosHeader (s : State) (f records length : Nat) : List Byte :=
  let x := s.fn f
  [0x42, 0x41, 0x53, 0x4F] ++ leBytes 2 1 ++ [byteOf glbId 2] ++ leBytes 1 (fld glbId 36 4).toNat ++
    (leBytes 6 s.st.ident.toNat).reverse ++ leBytes 1 s.gl.index.toNat ++ [0] ++ leBytes 2 f ++ leBytes 2 x.lodgN.toNat ++
    leBytes 2 x.ledgN.toNat ++ leBytes 2 x.nqN.toNat ++ leBytes 2 x.vecN.toNat ++ leBytes 4 records ++ leBytes 4 length ++
    List.replicate 30 0

/-- The image of function f saved at instant t. -/
def State.basosImage (s : State) (f : Nat) (t : Instant) : List Byte :=
  let recs := s.basosRecords f t
  let body := recs.flatten
  let l := s.basosHeader f recs.length (64 + body.length + 8) ++ body
  l ++ leBytes 8 (crc64 l).toNat

/-- The function's state refers only inside its own ranges (09 R231). -/
def State.basosFits (s : State) (f : Nat) : Bool :=
  let x := s.fn f
  (s.lt.entries.all fun p => !(x.evBase ≤ p.1 && p.1 < x.evBase + x.evCount) || !p.2.ctxv ||
    (x.ctxBase ≤ p.2.context.toNat && p.2.context.toNat < x.ctxBase + x.ctxCount)) &&
  (s.lg.ctxs.all fun p => !(x.ctxBase ≤ p.1 && p.1 < x.ctxBase + x.ctxCount) || !p.2.folv ||
    (x.evBase ≤ p.2.follow.toNat && p.2.follow.toNat < x.evBase + x.evCount))

/-! ### Reading an image (09 R235) -/

/-- The result codes of Table 09-4 that an image can bring. -/
def imgRevision : Nat := 0xB
def imgIdent : Nat := 0xC
def imgCrc : Nat := 0xD
def imgFit : Nat := 0xE
def imgFormat : Nat := 0xF

/-- The fault of a header, if any, for a restore into function f. -/
def State.headFault (s : State) (f : Nat) (l : List Byte) : Option Nat :=
  let x := s.fn f
  let n := sliceNat l 30 4
  if l.length < 64 || l.take 4 ≠ [0x42, 0x41, 0x53, 0x4F] || sliceNat l 4 2 ≠ 1 then some imgFormat
  else if sliceNat l 6 1 ≠ (byteOf glbId 2).toNat || sliceNat l 7 1 ≠ (fld glbId 36 4).toNat then some imgRevision
  else if (l.drop 8).take 6 ≠ (leBytes 6 s.st.ident.toNat).reverse then some imgIdent
  else if x.lodgN.toNat < sliceNat l 18 2 || x.ledgN.toNat < sliceNat l 20 2 || x.nqN.toNat < sliceNat l 22 2 ||
      x.vecN.toNat < sliceNat l 24 2 then some imgFit
  else if sliceNat l 15 1 ≠ 0 || sliceNat l 34 30 ≠ 0 || n < 72 || n % 8 ≠ 0 then some imgFormat
  else none

/-- An item of an image: type, function-relative index, bytes, and the offset just after it. -/
structure BasosItem where
  ty    : Nat
  idx   : Nat
  bytes : List Byte
  upto  : Nat
deriving DecidableEq, Repr

/-- What the bytes of an image so far give: its whole items, whether a record is malformed, and the offset after the last
record once every record is there. -/
structure BasosRead where
  items : List BasosItem := []
  bad   : Bool := false
  ended : Option Nat := none
deriving DecidableEq, Repr

/-- The whole items among n of size z that bytes l at offset o begin with. -/
def takeItems (ty z : Nat) : Nat → Nat → Nat → List Byte → List BasosItem
  | 0, _, _, _ => []
  | n + 1, i, o, l =>
    if (l.take z).length < z then [] else ⟨ty, i, l.take z, o + z⟩ :: takeItems ty z n (i + 1) (o + z) (l.drop z)

/-- Read `left` records from bytes l at offset o; seen are the heads so far. -/
def readRecords : Nat → Nat → Nat → List (Nat × Nat) → List Byte → BasosRead → BasosRead
  | _, 0, o, _, _, r => { r with ended := some o }
  | 0, _, _, _, _, r => r
  | fuel + 1, left + 1, o, seen, l, r =>
    if l.length < 8 then r
    else
      let ty := sliceNat l 0 1
      let n := sliceNat l 2 2
      let first := sliceNat l 4 4
      let z := basosSize ty
      if z = 0 || sliceNat l 1 1 ≠ 0 || n = 0 || seen.any (fun p => p.1 = ty && first ≤ p.2) then { r with bad := true }
      else
        let its := takeItems ty z n first (o + 8) (l.drop 8)
        let r := { r with items := r.items ++ its }
        if its.length < n then r
        else readRecords fuel left (o + 8 + z * n) ((ty, first + n - 1) :: seen) (l.drop (8 + z * n)) r

/-- Read an image, header checked. -/
def readImage (l : List Byte) : BasosRead := readRecords l.length (sliceNat l 26 4) 64 [] (l.drop 64) {}

/-- The number of items of a type that an image's counts allow. -/
def basosBound (l : List Byte) (ty : Nat) : Nat :=
  match ty with
  | 2 => 256 * sliceNat l 18 2
  | 3 => 16 * sliceNat l 20 2
  | 4 => 8 * sliceNat l 22 2
  | 5 => 8 * sliceNat l 24 2
  | 6 => (8 * sliceNat l 24 2 + 63) / 64
  | _ => 1

/-- Word i of an item. -/
def BasosItem.word (b : BasosItem) (i : Nat) : Word := BitVec.ofNat 64 (sliceNat b.bytes (8 * i) 8)

/-- An entry of an image, relocated into function f (fault codes by name). -/
def State.basosEntry (s : State) (f : Nat) (b : BasosItem) : Except Nat Entry :=
  let x := s.fn f
  match EvState.ofCode (fld (b.word 0) 0 4).toNat with
  | none => .error imgFormat
  | some st =>
    let v := entryOfWords st (b.word 0) (b.word 1)
    if st.ranked || st.taken || st = .heldCurfew || fld (b.word 0) 61 3 ≠ 0 || v.run || v.function ≠ 0 then .error imgFormat
    else if v.ctxv && x.ctxCount ≤ v.context.toNat then .error imgFit
    else .ok { v with
      function := BitVec.ofNat 10 f, context := if v.ctxv then v.context + BitVec.ofNat 12 x.ctxBase else v.context }

/-- A context of an image, relocated into function f at instant t. -/
def State.basosCtx (s : State) (f : Nat) (t : Instant) (b : BasosItem) : Except Nat Ctx :=
  let x := s.fn f
  let v := ctxOfWords b.word
  if v.owner ≠ 0 || b.word 5 ≠ 0 || b.word 7 ≠ 0 then .error imgFormat
  else if v.folv && x.evCount ≤ v.follow.toNat then .error imgFit
  else .ok { v with
    owner := BitVec.ofNat 10 f, follow := if v.folv then v.follow + BitVec.ofNat 17 x.evBase else v.follow,
    deadline := t + v.deadline, keyFirst := t - v.keyFirst }

/-- Install a context's image content; VERSION advances from its image value. -/
def State.basosPutCtx (s : State) (c : Nat) (v : Ctx) : State :=
  let s := s.putCtx c v
  s.setCtx c { s.ctx c with version := v.version + 1 }

/-- Install an entry's image content; VERSION advances from its image value. -/
def State.basosPutEntry (s : State) (e : Nat) (v : Entry) : State :=
  let s := s.apply none 0 e v
  s.setEntry e { s.entry e with version := v.version + 1 }

/-- Install the descriptor of an image: the ceiling, the share and the manager's words. -/
def State.basosDescriptor (s : State) (f : Nat) (b : BasosItem) : Except Nat State :=
  let w (i : Nat) : BitVec 12 := BitVec.ofNat 12 (sliceNat b.bytes (2 * i) 2)
  let share := (w 10).toNat
  if share = 0 || 64 < share || 112 < s.sharesGiven - (s.fn f).share.toNat + share then .error imgFit
  else .ok (s.modFn f fun x => { x with priCeil := w 9, share := BitVec.ofNat 8 share, user := w 15 ++ w 14 ++ w 13 })

/-- Install one item of an image into function f. -/
def State.basosInstall (s : State) (f : Nat) (b : BasosItem) : Except Nat State :=
  let x := s.fn f
  match b.ty with
  | 1 => s.basosDescriptor f b
  | 2 => match s.basosEntry f b with
    | .ok v => .ok (s.basosPutEntry (x.evBase + b.idx) v)
    | .error c => .error c
  | 3 => match s.basosCtx f s.now b with
    | .ok v => .ok (s.basosPutCtx (x.ctxBase + b.idx) v)
    | .error c => .error c
  | 4 =>
    let w := b.word 1
    .ok (s.modFn f fun y => y.modNq b.idx fun q =>
      { q with
        base := b.word 0, enable := bit w 0, logsize := fld w 1 4, prod := fld w 5 16, phase := bit w 21,
        cons := fld (b.word 2) 0 16 })
  | 5 => .ok (s.modFn f fun y => y.modVec b.idx fun v => { v with addr := b.word 0, data := fld (b.word 1) 0 32, ctl := fld (b.word 1) 32 32 &&& 1 })
  | 6 => .ok (s.modFn f fun y => (List.range 64).foldl (fun y i =>
      if 64 * b.idx + i < y.vecCount then y.modVec (64 * b.idx + i) fun v => { v with pending := bit (b.word 0) i } else y) y)
  | _ => .ok (s.modFn f fun y => { y with enable := bit (b.word 0) 0, fmask := bit (b.word 0) 1 })

/-- Install the items of an image whose last byte lies above `have`, in order, until one fails. -/
def State.basosItems (s : State) (f : Nat) (img : List Byte) (have_ : Nat) : List BasosItem → Except Nat State
  | [] => .ok s
  | b :: l =>
    if b.upto ≤ have_ then s.basosItems f img have_ l
    else if basosBound img b.ty ≤ b.idx then .error imgFit
    else match s.basosInstall f b with
      | .ok t => t.basosItems f img have_ l
      | .error c => .error c

end Sys2Proof.Machine
end

