-- ==== Sys2Proof/Machine/Function.lean ====
section
/-! DEFINITION. Function commands, function-level reset, migration, and the registers of a function page (09 R211 to R236). -/
namespace Sys2Proof.Machine

/-! ### Result codes (09 Table 09-4) -/

def fcOk : Nat := 0
def fcBadFunction : Nat := 1
def fcWrongState : Nat := 2
def fcBadArg : Nat := 3
def fcNoLodging : Nat := 4
def fcNoLedger : Nat := 5
def fcNoQueues : Nat := 6
def fcNoVectors : Nat := 7
def fcNoShare : Nat := 8
def fcBusy : Nat := 9
def fcNotSealed : Nat := 0xA

/-- A command naming function f ends with a code (09 Table 09-16). -/
def State.endCmd (s : State) (f code : Nat) : State :=
  { s with fm.code := BitVec.ofNat 4 code, fm.resFn := BitVec.ofNat 10 f, fm.busy := false, fm.valid := true }

/-! ### The staging buffer (09 R230, 15 R334) -/

/-- A migration takes the staging buffer: unread records are lost. -/
def State.takeBuffer (s : State) (m : Migration) : State :=
  let s := s.gbLose s.gbUnread 1
  { s with gb.prod := 0, gb.cons := 0, fm.mig := some m, fm.migFn := m.fn, fm.migPhase := if m.saving then 1 else 2,
           fm.segReady := false, fm.segLen := 0, fm.last := false }

/-- The migration ends: the buffer returns to the guest book, which writes its GAP record, and MIGRATE_STEP is posted. -/
def State.endMigration (s : State) : State :=
  let f := s.fm.migFn.toNat
  let s := { s with fm.mig := none, fm.migPhase := 0, fm.segReady := false }
  let s := if s.gb.enable then s.gbTime.gbGapRec 1 else s
  s.internal srcMigrate (pack [(10, f), (2, 2)])

/-! ### CREATE and MODIFY (09 R215, R217) -/

/-- The granules a CREATE may use of a pool of n, of which each half takes a part (12 Table 12-4). -/
def State.poolSpan (s : State) (n h0 h1lo h1hi : Nat) : Nat × Nat :=
  if !s.cu.pairEn then (0, n) else if s.half = 0 then (0, h0) else (h1lo, h1hi)

/-- The four ranges FN_ARG0 and FN_ARG1 ask for: count, base, AUTO. -/
def State.argRanges (s : State) : List (Nat × Nat × Bool) :=
  let a := s.fm.arg0
  let b := s.fm.arg1
  [((fld a 0 9).toNat, (fld a 9 9).toNat, bit a 18), ((fld a 19 9).toNat, (fld a 28 8).toNat, bit a 36),
   ((fld b 0 7).toNat, (fld b 7 10).toNat, bit b 17), ((fld b 18 9).toNat, (fld b 27 11).toNat, bit b 38)]

/-- Granules of the four pools and the most a function may hold (09 Table 09-3). -/
def poolSizes : List (Nat × Nat) := [(507, 507), (256, 256), (1024, 64), (2048, 256)]

def State.argShare (s : State) : Nat := (fld s.fm.arg2 12 8).toNat

/-- The arguments of CREATE or MODIFY are BAD_ARG: a count or base outside Table 09-3, a range past its pool's end, or a VF's share
outside 1 to 64. -/
def State.badArgs (s : State) (create : Bool) (f : Nat) : Bool :=
  (create && (s.argRanges.zip poolSizes).any fun p =>
    p.2.2 < p.1.1 || (!p.1.2.2 && p.2.1 < p.1.2.1 + max p.1.1 1)) ||
  (f ≠ 0 && (s.argShare = 0 || 64 < s.argShare))

/-- SHARE that VFs other than f hold. -/
def State.otherShares (s : State) (f : Nat) : Nat := s.sharesGiven - (if (s.fn f).state = .absent then 0 else (s.fn f).share.toNat)

/-- The bases of the four ranges, or the code of the first pool that cannot give its range. -/
def State.placeRanges (s : State) : Except Nat (List Nat) :=
  let spans := [s.poolSpan 507 251 256 507, s.poolSpan 256 128 128 256, s.poolSpan 1024 512 512 1024, s.poolSpan 2048 1024 1024 2048]
  let used := [s.poolUsed (fun x => x.lodgBase.toNat) (fun x => x.lodgN.toNat),
    s.poolUsed (fun x => x.ledgBase.toNat) (fun x => x.ledgN.toNat), s.poolUsed (fun x => x.nqBase.toNat) (fun x => x.nqN.toNat),
    s.poolUsed (fun x => x.vecBase.toNat) (fun x => x.vecN.toNat)]
  let go (r : Nat × Nat × Bool) (sp : Nat × Nat) (u : List (Nat × Nat)) : Option Nat := pick u sp.1 sp.2 r.1 r.2.1 r.2.2
  match s.argRanges, spans, used with
  | [a, b, c, d], [sa, sb, sc, sd], [ua, ub, uc, ud] =>
    match go a sa ua, go b sb ub, go c sc uc, go d sd ud with
    | some w, some x, some y, some z => .ok [w, x, y, z]
    | none, _, _, _ => .error fcNoLodging
    | _, none, _, _ => .error fcNoLedger
    | _, _, none, _ => .error fcNoQueues
    | _, _, _, none => .error fcNoVectors
  | _, _, _ => .error fcNoLodging

/-- Entries e to e + n - 1 return to their reset values under FUNCTION f, each VERSION advancing. -/
def State.resetEntries (s : State) (e n : Nat) (f : BitVec 10) : State :=
  (List.range n).foldl (fun s i => s.apply none 0 (e + i) { function := f }) s

/-- Contexts c to c + n - 1 return to their reset values under OWNER f, each VERSION advancing. -/
def State.resetContexts (s : State) (c n : Nat) (f : BitVec 10) : State :=
  (List.range n).foldl (fun s i => s.putCtx (c + i) { owner := f }) s

/-- CREATE of function f. -/
def State.createFn (s : State) (f : Nat) : Nat × State :=
  let x := s.fn f
  if (f = 0 && s.fm.zeroDone) || (f ≠ 0 && x.state ≠ .absent) then (fcWrongState, s)
  else match s.placeRanges with
    | .error c => (c, s)
    | .ok bases =>
      if f ≠ 0 && 112 < s.otherShares f + s.argShare then (fcNoShare, s)
      else
        let a := s.fm.arg0
        let b := s.fm.arg1
        let base (i : Nat) : Nat := bases[i]?.getD 0
        let y : Fn := { x with
          state := .inService, gen := x.gen + 1, lodgBase := BitVec.ofNat 9 (base 0), lodgN := fld a 0 9,
          ledgBase := BitVec.ofNat 8 (base 1), ledgN := fld a 19 9, nqBase := BitVec.ofNat 10 (base 2), nqN := fld b 0 7,
          vecBase := BitVec.ofNat 11 (base 3), vecN := fld b 18 9, user := fld s.fm.arg2 20 36, index := s.gl.index,
          priCeil := if f = 0 then x.priCeil else fld s.fm.arg2 0 12, share := if f = 0 then x.share else fld s.fm.arg2 12 8,
          queues := [], vectors := [] }
        let s := s.modFn f fun _ => y
        let s := (s.resetEntries y.evBase y.evCount (BitVec.ofNat 10 f)).resetContexts y.ctxBase y.ctxCount (BitVec.ofNat 10 f)
        (fcOk, if f = 0 then { s with fm.zeroDone := true } else s)

/-- MODIFY of function f. -/
def State.modifyFn (s : State) (f : Nat) : Nat × State :=
  let x := s.fn f
  if x.state ≠ .inService && x.state ≠ .frozen then (fcWrongState, s)
  else if f ≠ 0 && 112 < s.otherShares f + s.argShare then (fcNoShare, s)
  else (fcOk, s.modFn f fun y => { y with
    gen := y.gen + 1, user := fld s.fm.arg2 20 36, priCeil := if f = 0 then y.priCeil else fld s.fm.arg2 0 12,
    share := if f = 0 then y.share else fld s.fm.arg2 12 8 })

/-! ### FLR and DESTROY (09 Table 09-8) -/

/-- Begin the drain of an FLR or DESTROY: RESET, a held fence discarded, a migration of the function aborted. -/
def State.beginDrain (s : State) (f : Nat) (destroy : Bool) : State :=
  let st := (s.fn f).state
  let s := match s.fm.mig with
    | some m => if m.fn.toNat = f then s.endMigration else s
    | none => s
  let s := { s with
    mi.fences := s.mi.fences.filter (fun k => k.fn.toNat ≠ f),
    fm.drain := some ⟨BitVec.ofNat 10 f, destroy, if st = FnState.inService then .inService else .frozen, s.pa.order⟩ }
  s.setFnState f .reset

/-- The listed entries of a function's range. -/
def State.rangeEntries (s : State) (f : Nat) : List Nat :=
  let x := s.fn f
  (s.lt.entries.filter fun p => x.evBase ≤ p.1 && p.1 < x.evBase + x.evCount).map (·.1)

/-- A commit or a restore holds an entry or context of function f's ranges. -/
def State.rangeBusy (s : State) (f : Nat) : Bool :=
  let x := s.fn f
  (s.lt.side.any fun p => x.evBase ≤ p.1 && p.1 < x.evBase + x.evCount && s.busy p.1) ||
  (s.lg.locks.any fun p => x.ctxBase ≤ p.1 && p.1 < x.ctxBase + x.ctxCount) ||
  (s.lg.waits.any fun p => x.ctxBase ≤ p.1 && p.1 < x.ctxBase + x.ctxCount)

/-- Close a context of a function that is reset (04 R85). -/
def State.closeCtx (s : State) (c : Nat) : State :=
  let x := s.ctx c
  let s := if x.state = .free || x.state = .faulted then s else s.putCtx c x.free
  s.markStale c false

/-- Step 5 of Table 09-8 for function f. -/
def State.squashFn (s : State) (f : Nat) : State :=
  let x := s.fn f
  let s := (s.rangeEntries f).foldl (fun s e => s.squash e) s
  let s := (List.range x.ctxCount).foldl (fun s i => s.closeCtx (x.ctxBase + i)) s
  s.modFn f fun y => { y with queues := [], vectors := [], enable := false, fmask := false }

/-- The function's runs that began before the drain have ended, its egress is issued, and no commit holds its items. -/
def State.drained (s : State) (f : Nat) (destroy : Bool) : Option Drain :=
  match s.fm.drain with
  | some d =>
    if d.fn.toNat = f && d.destroy = destroy && (s.allRuns.all fun p => p.2.fn.toNat ≠ f || d.barrier ≤ p.2.order) &&
        ((s.ep.queue ++ s.ep.spill).all fun w => w.fn.toNat ≠ f) && !s.rangeBusy f then some d
    else none
  | none => none

/-- Steps 5 and 6 of an FLR. -/
def State.flrEnd (s : State) (f : Nat) : State :=
  match s.drained f false with
  | some d =>
    let s := ({ s with fm.drain := none }.squashFn f).setFnState f d.back
    ((s.modFn f fun x => { x with restored := false }).internal srcFlrDone f).endCmd f fcOk
  | none => s

/-- The squash of a DESTROY, the return of its ranges, and ABSENT; the generation has advanced at its start (09 R218). -/
def State.destroyEnd (s : State) (f : Nat) : State :=
  match s.drained f true with
  | some _ =>
    let s := { s with fm.drain := none }.squashFn f
    let x := s.fn f
    let s := (s.rangeEntries f).foldl (fun s e => s.putEntry none 0 e { s.entry e with function := 0 }) s
    let s := (List.range x.ctxCount).foldl (fun s i => s.putCtx (x.ctxBase + i) { s.ctx (x.ctxBase + i) with owner := 0 }) s
    (s.modFn f fun y => { gen := y.gen }).endCmd f fcOk
  | none => s

/-! ### FREEZE, THAW and migration (09 R228 to R235) -/

/-- The expiry record that THAW queues for a restored context with EXPIRED set. -/
def State.thawRecord (s : State) (c : Nat) : State :=
  if !(s.ctx c).expired || (s.ctx c).state = .faulted then s
  else if s.expFull then s.holdExp c
  else s.queueExp c

/-- THAW: wait-list entries return to their banks' dispatch lists, in order. -/
def State.thawFn (s : State) (f : Nat) : State :=
  let x := s.fn f
  let s := (s.setFnState f .inService).modFn f fun y => { y with waitList := [], restored := false }
  let s := x.waitList.foldl (fun s e => if s.dispatchable e then s.modDlist (s.bank e) (· ++ [e]) else s) s
  if x.restored then (List.range x.ctxCount).foldl (fun s i => s.thawRecord (x.ctxBase + i)) s else s

/-- SAVE: the image is fixed at S. -/
def State.saveFn (s : State) (f : Nat) : Nat × State :=
  if (s.fn f).state ≠ .frozen || !s.quiet f then (fcWrongState, s)
  else if !s.basosFits f then (imgFit, { s with fm.error := BitVec.ofNat 4 imgFit })
  else
    let img := s.basosImage f s.now
    let s := { s.setFnState f .saving with fm.dirty := false }
    (fcOk, s.takeBuffer ⟨true, BitVec.ofNat 10 f, s.now, img, 0, none⟩)

/-- A segment of the image stands in the buffer (09 R230). -/
def State.segmentReady (s : State) : State :=
  match s.fm.mig with
  | some m =>
    if !m.saving || s.fm.segReady then s
    else
      let n := min stagingBytes (m.image.length - m.done)
      let s := { s with gb.buffer := [] }.putBytes 0 ((m.image.drop m.done).take n)
      ({ s with
        fm.segReady := true, fm.segLen := BitVec.ofNat 19 n,
        fm.last := m.image.length ≤ m.done + n }).internal srcMigrate (pack [(10, m.fn.toNat), (2, 1)])
  | none => s

/-- RESTORE. -/
def State.restoreFn (s : State) (f : Nat) : Nat × State :=
  let x := s.fn f
  if x.state ≠ .frozen || (s.rangeEntries f).any (fun e => (s.entry e).state ≠ .idle) ||
      (List.range x.ctxCount).any (fun i => (s.ctx (x.ctxBase + i)).state ≠ .free) then (fcWrongState, s)
  else (fcOk, (s.setFnState f .restoring).takeBuffer ⟨false, BitVec.ofNat 10 f, 0, [], 0, none⟩)

/-- NEXT with a segment length. -/
def State.nextFn (s : State) (f len : Nat) : Nat × State :=
  match s.fm.mig with
  | some m =>
    if m.fn.toNat ≠ f then (fcWrongState, s)
    else if m.saving then
      if !s.fm.segReady then (fcBusy, s)
      else if s.fm.last then (fcOk, (s.setFnState f .frozen).endMigration)
      else (fcOk, { s with fm.segReady := false, fm.mig := some { m with done := m.done + s.fm.segLen.toNat } })
    else if m.install.isSome then (fcBusy, s)
    else if len % 8 ≠ 0 || len = 0 || stagingBytes < len then (fcBadArg, s)
    else (fcOk, { s with fm.mig := some { m with install := some len, image := m.image ++ s.getBytes 0 len } })
  | none => (fcWrongState, s)

/-- ABORT. -/
def State.abortFn (s : State) (f : Nat) : Nat × State :=
  match s.fm.mig with
  | some m => if m.fn.toNat = f then (fcOk, (s.setFnState f .frozen).endMigration) else (fcWrongState, s)
  | none => (fcWrongState, s)

/-- A restore fails: its code, the squash of step 5, every entry IDLE and every context FREE, FROZEN. -/
def State.restoreFail (s : State) (f code : Nat) : State :=
  let s := (s.rangeEntries f).foldl (fun s e =>
    if (s.entry e).state = .faulted then s.apply none 0 e { s.entry e with state := .idle } else s) s
  let s := (List.range (s.fn f).ctxCount).foldl (fun s i =>
    let c := (s.fn f).ctxBase + i
    if (s.ctx c).state = .faulted then s.putCtx c (s.ctx c).free else s) s
  ({ s.squashFn f with fm.error := BitVec.ofNat 4 code }.setFnState f .frozen).endMigration

/-- The image is whole: LENGTH and the CRC are checked. -/
def basosEnd (img : List Byte) (r : BasosRead) : Option Nat :=
  let n := sliceNat img 30 4
  if img.length ≠ n || r.ended ≠ some (n - 8) then some imgFormat
  else if sliceNat img (n - 8) 8 ≠ (crc64 (img.take (n - 8))).toNat then some imgCrc
  else none

/-- A written segment is checked and installed (09 R235). -/
def State.segmentInstalled (s : State) : State :=
  match s.fm.mig with
  | some m =>
    let f := m.fn.toNat
    match m.install with
    | none => s
    | some _ =>
      let img := m.image
      let s := { s with fm.mig := some { m with install := none, done := img.length } }
      match s.headFault f img with
      | some c => s.restoreFail f c
      | none =>
        let r := readImage img
        if r.bad then s.restoreFail f imgFormat
        else match s.basosItems f img m.done r.items with
          | .error c => s.restoreFail f c
          | .ok t =>
            if img.length < sliceNat img 30 4 then t
            else match basosEnd img r with
              | some c => t.restoreFail f c
              | none => (t.setFnState f .frozen |>.modFn f fun x => { x with restored := true }).endMigration
  | none => s

/-! ### FN_CMD (09 R216, R217) -/

/-- Function f is the partner's under pair mode and not promoted (12 R287). -/
def State.partnerFn (s : State) (f : Nat) : Bool :=
  s.cu.pairEn && s.cu.pair ≠ .promoted && f ≠ 0 && !fnHalf s.half f

/-- The code that keeps a command from its function, in the order of R216 and R217. -/
def State.cmdBar (s : State) (op f len : Nat) (rsv : Bool) : Option Nat :=
  let restoring := (s.fn f).state = .restoring
  if op = 0 || 0xA < op then some fcBadArg
  else if 512 < f then some fcBadFunction
  else if rsv || ((op = 1 || op = 2) && s.badArgs (op = 1) f) ||
      (op = 9 && restoring && (len % 8 ≠ 0 || len = 0 || stagingBytes < len)) then some fcBadArg
  else if (f = 0 && 3 ≤ op && op ≤ 8) || (op = 1 && s.partnerFn f) then some fcBadFunction
  else if !s.st.sealed && !(op = 1 && f = 0) then some fcNotSealed
  else if f ≠ 0 && s.cu.pairEn && (s.cu.pair = .off || s.cu.pair = .waiting) then some fcBusy
  else match s.fm.mig with
    | some m => if m.fn.toNat ≠ f then some fcBusy else none
    | none => none

/-- The states in which a command is accepted (09 Table 09-5); CREATE and MODIFY check their own. -/
def fnAccepts (op : Nat) (st : FnState) : Bool :=
  match op with
  | 3 => st = .inService || st = .frozen
  | 4 => st = .inService || st = .frozen || st = .saving || st = .restoring
  | 5 => st = .inService
  | 6 | 7 | 8 => st = .frozen
  | 9 | 10 => st = .saving || st = .restoring
  | _ => true

/-- What an accepted command does: its code, none while it runs on. -/
def State.cmdRun (s : State) (op f len : Nat) : Option Nat × State :=
  let now (r : Nat × State) : Option Nat × State := (some r.1, r.2)
  if !fnAccepts op (s.fn f).state then (some fcWrongState, s)
  else match op with
    | 1 => now (s.createFn f)
    | 2 => now (s.modifyFn f)
    | 3 => (none, s.beginDrain f true)
    | 4 => (none, s.beginDrain f false)
    | 5 => (some fcOk, s.setFnState f .frozen)
    | 6 => (some fcOk, s.thawFn f)
    | 7 => now (s.saveFn f)
    | 8 => now (s.restoreFn f)
    | 9 => now (s.nextFn f len)
    | _ => now (s.abortFn f)

/-- A write of FN_CMD. -/
def State.fnCommand (s : State) (op f len : Nat) (rsv : Bool) : State :=
  if s.fm.busy then { s with fm.refused := true, fm.refusedFn := BitVec.ofNat 10 f }
  else
    let s := { s with fm.refused := false }
    match s.cmdBar op f len rsv with
    | some c => s.endCmd f c
    | none =>
      match s.cmdRun op f len with
      | (some c, s) =>
        let s := s.endCmd f c
        if op = 1 && 4 ≤ c && c ≤ 8 then s.internal srcPool (pack [(10, f), (4, c)]) else s
      | (none, s) => { s with fm.busy := true, fm.resFn := BitVec.ofNat 10 f }

/-- A CREATE whose ranges a commit or restore still holds waits for it (05 R116). -/
def State.createBusy (s : State) (op f : Nat) (rsv : Bool) : Bool :=
  op = 1 && !s.fm.busy && (s.cmdBar op f 0 rsv).isNone &&
    (let t := (s.createFn f).2
     let x := t.fn f
     (s.lt.side.any fun p => x.evBase ≤ p.1 && p.1 < x.evBase + x.evCount && s.busy p.1) ||
     (s.lg.locks.any fun p => x.ctxBase ≤ p.1 && p.1 < x.ctxBase + x.ctxCount))

/-- A host write of FN_CMD; c is the command that makes it. -/
def State.fnWrite (s : State) (c : Instr) (h : HpAttr) (op f len : Nat) (rsv : Bool) : State :=
  if s.createBusy op f rsv then s.block c else (s.fnCommand op f len rsv).ok h

/-! ### Registers of a function page (09 R223 to R226) -/

/-- A write of MSIX_CTL: the generation advances, and messages that nothing masks any more are sent. -/
def State.msixCtl (s : State) (h : HpAttr) (f : Nat) (v : Word) : State :=
  ((s.modFn f fun x => { x with enable := bit v 0, fmask := bit v 1, gen := x.gen + 1 }).sendPending f).ok h

/-- A write of half a vector entry: the address, or data and control; control keeps bit 0 alone. mask says which bytes. -/
def State.vectorWrite (s : State) (h : HpAttr) (f v : Nat) (high : Bool) (val mask : Word) : State :=
  let x := s.fn f
  if x.vecCount ≤ v then s.deny h
  else
    let put (old : Word) : Word := (old &&& ~~~mask) ||| (val &&& mask)
    let g (y : Vector) : Vector :=
      if high then
        let w := put (y.ctl ++ y.data)
        { y with data := fld w 0 32, ctl := fld w 32 32 &&& 1 }
      else { y with addr := put y.addr }
    ((s.modFn f fun y => y.modVec v g).sendPending f).ok h

/-- A write of NQ_CONSq (09 R223). -/
def State.nqCons (s : State) (h : HpAttr) (f q : Nat) (v : Word) : State :=
  let x := s.fn f
  let y := x.nq q
  let c := fld v 0 16
  if x.nqCount ≤ q || (y.prod - y.cons).toNat < (y.prod - c).toNat then s.deny h
  else (s.modFn f fun z => z.modNq q fun n => { n with cons := c }).ok h

/-- A write of NQ_BASEq (09 R224): bits 5 to 0 are reserved. -/
def State.nqBase (s : State) (h : HpAttr) (f q : Nat) (v : Word) : State :=
  let x := s.fn f
  let b := v &&& ~~~(0x3F : Word)
  if x.nqCount ≤ q || ((x.nq q).enable && b ≠ (x.nq q).base) then s.deny h
  else (s.modFn f fun z => z.modNq q fun n => { n with base := b }).ok h

/-- A write of NQ_CFGq (09 R224): LOGSIZE below 4 is reserved and keeps the old value (00 R8). -/
def State.nqCfg (s : State) (h : HpAttr) (f q : Nat) (v : Word) : State :=
  let x := s.fn f
  let y := x.nq q
  let ls := if (fld v 1 4).toNat < 4 then y.logsize else fld v 1 4
  if x.nqCount ≤ q || (y.enable && ls ≠ y.logsize) then s.deny h
  else
    (s.modFn f fun z => z.modNq q fun n =>
      if bit v 0 && !n.enable then { n with enable := true, logsize := ls, prod := 0, cons := 0, phase := true }
      else { n with enable := bit v 0, logsize := ls }).ok h

end Sys2Proof.Machine
end

