-- ==== Sys2Proof/Machine/Line.lean ====
section
/-! DEFINITION. The Courier line: RS(68,64), CRC-32C, lane parity, PRBS31, flits and training blocks as bytes (11 R250 to R256, R271). -/
namespace Sys2Proof.Machine

/-! ### GF(2^8) (11 R252) -/

/-- Multiply by α = 0x02 modulo x^8 + x^4 + x^3 + x^2 + 1. -/
def gfStep (a : Byte) : Byte := if a.msb then (a <<< 1) ^^^ 0x1D else a <<< 1

def gfMulFrom (a b : Byte) : Nat → Byte
  | 0 => 0
  | n + 1 => (if bit b 0 then a else 0) ^^^ gfMulFrom (gfStep a) (b >>> 1) n

def gfMul (a b : Byte) : Byte := gfMulFrom a b 8

/-- α^n. -/
def gfExp (n : Nat) : Byte := iter gfStep n 1

def gfPow (a : Byte) (n : Nat) : Byte := iter (gfMul a) n 1

/-- The inverse of a, as a^254. -/
def gfInv (a : Byte) : Byte := gfPow a 254

/-! ### RS(68,64): symbol i is the coefficient of x^(67 - i) -/

/-- The generator polynomial's coefficients below x^4, highest first: the product of (x + α^i), i = 0 to 3. -/
def rsGen : List Byte :=
  (List.range 4).foldl (fun g i => (List.zipWith (· ^^^ ·) (g.drop 1 ++ [0]) (g.map (gfMul (gfExp i)))) ) [0, 0, 0, 1]

/-- One step of the division register. -/
def rsShift (r : List Byte) (d : Byte) : List Byte :=
  let f := d ^^^ r.headD 0
  List.zipWith (· ^^^ ·) (r.drop 1 ++ [0]) (rsGen.map (gfMul f))

/-- The four parity symbols of 64 data symbols. -/
def rsParity (data : List Byte) : List Byte := data.foldl rsShift [0, 0, 0, 0]

/-- Syndrome i of a received word. -/
def rsSyndrome (w : List Byte) (i : Nat) : Byte := w.foldl (fun a x => gfMul a (gfExp i) ^^^ x) 0

/-- Correct a 68-symbol word: the word and the indices corrected; none where more than two symbols are wrong. -/
def rsDecode (w : List Byte) : Option (List Byte × List Nat) :=
  let s0 := rsSyndrome w 0
  let s1 := rsSyndrome w 1
  let s2 := rsSyndrome w 2
  let s3 := rsSyndrome w 3
  let loc (i : Nat) : Byte := gfExp (67 - i)
  let fix (i : Nat) (e : Byte) (w : List Byte) : List Byte := w.zipIdx.map fun p => if p.2 = i then p.1 ^^^ e else p.1
  if s0 = 0 && s1 = 0 && s2 = 0 && s3 = 0 then some (w, [])
  else
    match (List.range 68).find? fun i =>
        s0 ≠ 0 && gfMul s0 (loc i) = s1 && gfMul s1 (loc i) = s2 && gfMul s2 (loc i) = s3 with
    | some i => some (fix i s0 w, [i])
    | none =>
      let det := gfMul s1 s1 ^^^ gfMul s0 s2
      if det = 0 then none
      else
        let inv := gfInv det
        let l1 := gfMul (gfMul s0 s3 ^^^ gfMul s1 s2) inv
        let l2 := gfMul (gfMul s1 s3 ^^^ gfMul s2 s2) inv
        match (List.range 68).filter fun i => gfMul (loc i) (loc i) ^^^ gfMul l1 (loc i) ^^^ l2 = 0 with
        | [i, j] =>
          let e1 := gfMul (s1 ^^^ gfMul s0 (loc j)) (gfInv (loc i ^^^ loc j))
          some (fix j (s0 ^^^ e1) (fix i e1 w), [i, j])
        | _ => none

/-- The symbols of codeword c of 136 wire bytes. -/
def codeword (wire : List Byte) (c : Nat) : List Byte := (wire.zipIdx.filter fun p => p.2 % 2 = c).map (·.1)

/-- Two symbol lists interleaved. -/
def interleave : List Byte → List Byte → List Byte
  | a :: as, b :: bs => a :: b :: interleave as bs
  | _, _ => []

/-- The 136 wire bytes of a 128-byte flit. -/
def wireOf (flit : List Byte) : List Byte :=
  flit ++ interleave (rsParity (codeword flit 0)) (rsParity (codeword flit 1))

/-! ### CRC-32C (11 R254) -/

def crc32cBit (c : BitVec 32) : BitVec 32 := if bit c 0 then (c >>> 1) ^^^ 0x82F63B78 else c >>> 1
def crc32c (l : List Byte) : BitVec 32 := ~~~(l.foldl (fun c b => iter crc32cBit 8 (c ^^^ b.setWidth 32)) 0xFFFFFFFF)

/-! ### Lane parity and PRBS31 (11 R251, R255) -/

/-- Parity byte j at width w over bytes 0 to 123. -/
def parityByte (w j : Nat) (l : List Byte) : Byte :=
  if w ≤ j then 0 else ((l.take 124).zipIdx.filter fun p => p.2 % w = j).foldl (fun a p => a ^^^ p.1) 0

/-- One bit of x^31 + x^28 + 1: the register after, and the bit. -/
def prbsStep (k : BitVec 31) : BitVec 31 × Bool :=
  let b := bit k 30 != bit k 27
  ((k <<< 1) ||| BitVec.ofNat 31 (b2n b), b)

/-- Scramble a byte, least significant bit first. -/
def prbsByte (k : BitVec 31) (v : Byte) : BitVec 31 × Byte :=
  (List.range 8).foldl (fun (p : BitVec 31 × Byte) i =>
    let r := prbsStep p.1
    (r.1, if r.2 then p.2 ^^^ ((1 : Byte) <<< i) else p.2)) (k, v)

/-- Scramble a lane's bytes. -/
def prbsBytes (k : BitVec 31) (l : List Byte) : BitVec 31 × List Byte :=
  l.foldl (fun (p : BitVec 31 × List Byte) v => let r := prbsByte p.1 v; (r.1, p.2 ++ [r.2])) (k, [])

/-- The seed of lane position j (11 R251). -/
def prbsSeed (j : Nat) : BitVec 31 := (0x7FFFFFFF : BitVec 31) ^^^ BitVec.ofNat 31 j

/-! ### PAM4 (11 R251) -/

/-- The level of a bit pair: Gray mapping 00, 01, 11, 10. -/
def pamOf (v : BitVec 2) : Pam4 := if v = 0 then .m3 else if v = 1 then .m1 else if v = 3 then .p1 else .p3

/-- The bit pair of a level. -/
def pamPair : Pam4 → Nat
  | .m3 => 0 | .m1 => 1 | .p1 => 3 | .p3 => 2

/-- The symbols of a lane's bytes, least significant bit pair first. -/
def lineSyms (l : List Byte) : List Pam4 := (l.map fun b => (List.range 4).map fun i => pamOf (fld b (2 * i) 2)).flatten

/-- The bytes of a lane's symbols. -/
def symBytes : List Pam4 → List Byte
  | a :: b :: c :: d :: l => BitVec.ofNat 8 (pamPair a + 4 * pamPair b + 16 * pamPair c + 64 * pamPair d) :: symBytes l
  | _ => []

/-! ### Flits (11 R253) -/

/-- A flit header's fields. -/
structure FlitHead where
  type  : BitVec 4
  seq   : W12
  ack   : W12
  vc    : BitVec 2
  nak   : Bool
  slotv : BitVec 7
  map   : BitVec 5
  width : BitVec 3
deriving DecidableEq, Repr

def FlitHead.bits (h : FlitHead) : Word :=
  word [(4, h.type.toNat), (12, h.seq.toNat), (12, h.ack.toNat), (2, h.vc.toNat), (1, b2n h.nak), (7, h.slotv.toNat),
    (5, h.map.toNat), (3, h.width.toNat)]

/-- The header that a flit's bytes hold. -/
def flitHead (l : List Byte) : FlitHead :=
  let v := BitVec.ofNat 64 (sliceNat l 0 8)
  ⟨fld v 0 4, fld v 4 12, fld v 16 12, fld v 28 2, bit v 30, fld v 31 7, fld v 38 5, fld v 43 3⟩

/-- Slot s of a flit's bytes. -/
def flitSlot (l : List Byte) (s : Nat) : BitVec 128 := BitVec.ofNat 128 (sliceNat l (8 + 16 * s) 16)

/-- The 128 bytes of a flit at width w. -/
def flitBytes (h : FlitHead) (slots : List (BitVec 128)) : List Byte :=
  let body := leBytes 8 h.bits.toNat ++ ((List.range 7).map fun i => leBytes 16 (slots[i]?.getD 0).toNat).flatten
  let l := body ++ leBytes 4 (crc32c body).toNat
  l ++ (List.range 4).map fun j => parityByte h.width.toNat j l

/-- What the receiver makes of 136 wire bytes: the flit's bytes, the wire indices it corrected, and whether it passes. -/
structure Received where
  flit : List Byte
  fixed : List Nat
  pass : Bool
deriving DecidableEq, Repr

def receiveWire (wire : List Byte) : Received :=
  let raw := wire.take 128
  let a := rsDecode (codeword wire 0)
  let b := rsDecode (codeword wire 1)
  let words (c : Nat) (d : Option (List Byte × List Nat)) : List Byte :=
    match d with | some r => r.1 | none => codeword wire c
  let flit := (interleave (words 0 a) (words 1 b)).take 128
  match a, b with
  | some x, some y =>
    ⟨flit, x.2.map (2 * ·) ++ y.2.map (fun i => 2 * i + 1), sliceNat flit 120 4 = (crc32c (flit.take 120)).toNat⟩
  | _, _ => ⟨if a.isNone && b.isNone then raw else flit, [], false⟩

/-- The lane positions that parity blames at width w. -/
def blamed (w : Nat) (l : List Byte) : List Nat :=
  (List.range w).filter fun j => l[124 + j]?.getD 0 ≠ parityByte w j l

/-- The j-th lane of a map in ascending physical order. -/
def laneAt (map : BitVec 5) (j : Nat) : Option Nat := ((List.range 5).filter fun k => bit map k)[j]?

/-! ### LINK messages (11 Table 11-4) -/

def linkMsg (msg : Nat) (full : Bool) (good maxw index pseq : Nat) : BitVec 128 :=
  slot [(8, msg), (8, b2n full), (8, good), (8, maxw), (8, index), (16, pseq)]

/-- PROPOSE and ANSWER fields of a message. -/
def linkFields (m : BitVec 128) : LinkMsg := ⟨bit m 8, sfld m 2 5, sfld m 3 3, sfld m 4 2⟩

/-! ### Training blocks (11 Table 11-6) -/

/-- The block that lane `lane` sends: state code, index, good set, MAX_WIDTH, KIND FULL requested, ready, coefficients. -/
def trainingBlock (lane state index good maxw : Nat) (full ready : Bool) (coeff : BitVec 32) : BitVec 128 :=
  let l := leBytes 12 (pack [(8, 0xC7), (8, 0x3A), (4, lane), (4, state), (8, index), (8, good), (8, maxw),
    (8, (byteOf glbId 2).toNat), (1, b2n full), (7, b2n ready), (32, coeff.toNat)])
  BitVec.ofNat 128 (leNat (l ++ leBytes 4 (crc32c l).toNat))

/-- Markers and CRC of a block are valid. -/
def blockGood (b : BitVec 128) : Bool :=
  let l := leBytes 16 b.toNat
  byteOf b 0 = 0xC7 && byteOf b 1 = 0x3A && sliceNat l 12 4 = (crc32c (l.take 12)).toNat

end Sys2Proof.Machine
end

