-- ==== Sys2Proof/Machine/Remote.lean ====
section
/-! DEFINITION. What received slots do: visitors, reports, rooms, the mirror, restores; and what a lost link and a promotion bring
(12 R278 to R292, 13 R297, R301). -/
namespace Sys2Proof.Machine

/-- The block at the other end of port n. -/
def State.peerOf (s : State) (n : Nat) : Nat := (s.port n).peerIndex.toNat

/-- The number of a visitor's storage. -/
def visKey (home room : Nat) : Nat := 4096 * home + room

/-- Room `room` of home block b may be named by a slot: it lies in a grant given since the link became ACTIVE. -/
def State.roomGiven (s : State) (b room : Nat) : Bool := room < (s.peer b).given.toNat

/-! ### Slots of the home block, received at the peer (12 R283 to R285). None: no room was reserved (11 R258) -/

/-- The room of visitor storage that the next visitor takes: the lowest that holds none. Which of its own rooms the block gives to a home
index and room number is not stated: DESIGN CHOICE (notes/assumptions/41.md). -/
def State.freeStore (s : State) : Nat :=
  ((List.range 4096).find? fun k => s.rn.visitors.all fun p => match p.2 with | some v => v.store.toNat ≠ k | none => true).getD 0

/-- The visitor that room k of visitor storage holds. -/
def State.storedIn (s : State) (k : Nat) : Option Visitor :=
  (s.rn.visitors.filterMap (·.2)).find? fun v => v.store.toNat = k

/-- PLACE. -/
def State.recvPlace (s : State) (n room ev t : Nat) (pri : W12) (payload : BitVec 36) (mask : Bool) : Option State :=
  let b := s.peerOf n
  if !s.roomGiven b room || (s.visitor (visKey b room)).isSome || (tget none (s.peer b).reports room).isSome ||
      (s.peer b).returns.contains (BitVec.ofNat 12 room) then none
  else
    let v : Visitor :=
      { home := BitVec.ofNat 2 b, room := BitVec.ofNat 12 room, event := BitVec.ofNat 17 ev, target := BitVec.ofNat 8 t,
        priority := pri, payload := payload, mask := mask, ucount := 0, state := .queued, holder := none,
        store := BitVec.ofNat 12 s.freeStore }
    some ((s.setVisitor (visKey b room) (some v)).placeAt t (visCand b room))

/-- The code of a visitor's state in a report. -/
def VisState.code : VisState → Nat
  | .offered => 1 | .claimed => 2 | .queued => 3

/-- UPDATE. -/
def State.recvUpdate (s : State) (n room : Nat) (pri : W12) (payload : BitVec 36) (ucount : BitVec 4)
    (mask hasPayload : Bool) : Option State :=
  let b := s.peerOf n
  if !s.roomGiven b room then none
  else match s.visitor (visKey b room) with
    | none => some s
    | some v =>
      if v.state = .claimed then some (if hasPayload then s.report v 2 else s)
      else
        let w := { v with
          priority := pri, mask := mask, payload := if hasPayload then payload else v.payload,
          ucount := if hasPayload then ucount else v.ucount }
        let c := visCand b room
        let t := v.target.toNat
        let s := s.setVisitor (visKey b room) (some w)
        let s := if mask && w.state = .offered then s.withdraw t c else s
        let s := if pri ≠ v.priority then s.rerank t c v.priority.toNat else s.settle t
        some (if hasPayload then
            (match s.visitor (visKey b room) with | some u => s.report u u.state.code | none => s)
          else s)

/-- A visitor that is not claimed leaves its place. -/
def State.removeVisitor (s : State) (v : Visitor) : State :=
  let c := visCand v.home.toNat v.room.toNat
  let s := s.leaveRank v.target.toNat c
  (s.setVisitor (visKey v.home.toNat v.room.toNat) none).settle v.target.toNat

/-- RECALL. -/
def State.recvRecall (s : State) (n room : Nat) : Option State :=
  let b := s.peerOf n
  if !s.roomGiven b room then none
  else match s.visitor (visKey b room) with
    | some v => some (if v.state = .claimed then s else (s.removeVisitor v).report v 5)
    | none => some s

/-! ### Reports, received at the home block (12 R284, R285) -/

/-- Offer and Claim as far as entry e has not passed them. -/
def State.awayOffer (s : State) (e : Nat) : State :=
  let x := s.entry e
  if x.state = .queued then s.putEntry (some .offered) (x.target.toNat % 256) e { x with state := .offered } else s

def State.awayClaim (s : State) (e : Nat) (seen : BitVec 4) : State :=
  let s := s.awayOffer e
  let x := s.entry e
  if x.state = .offered then
    let s := s.putEntry (some .claim) (x.target.toNat % 256) e { x with state := .claimed }
    if (s.side e).ucount = seen then s else (s.post { payload := none } e).2
  else s

/-- Entry e loses its room and waits for another (12 R286). -/
def State.abandonEntry (s : State) (e b : Nat) : State :=
  let x := s.entry e
  let s := s.modSide e fun d => { d with room := none }
  let s := match x.state with
    | .offered => s.reoffer 0 e x false
    | .claimed | .claimedRepost => s.reoffer 0 e x true
    | _ => s
  if (s.entry e).state ≠ .queued || (s.rn.heldPl.any fun h => h.event = e) || (s.peer b).waiting.contains e then s
  else s.modPeer b fun p => { p with waiting := p.waiting ++ [e] }

/-- The stimuli that lead entry e to the reported state. -/
def State.awayReport (s : State) (e b st : Nat) (seen : BitVec 4) : State :=
  let x := s.entry e
  let s := s.modSide e fun d => { d with acked := seen }
  match st with
  | 1 => s.awayOffer e
  | 2 => s.awayClaim e seen
  | 3 => if x.state = .offered then s.putEntry (some .reoffer) (x.target.toNat % 256) e { x with state := .queued } else s
  | 4 =>
    let s := (s.awayClaim e seen).modSide e fun d => { d with room := none }
    s.complete (x.target.toNat % 256) e
  | 5 => s.abandonEntry e b
  | _ => s

/-- A room is free once its final report and its RETURN have both come (12 R280). -/
def State.freeRooms (s : State) (b : Nat) : State :=
  (s.modPeer b fun p =>
    { p with rooms := tmap none p.rooms fun _ r => match r with
        | some x => if x.reported && x.returned then none else some x
        | none => none }).sendWaiting b

def State.markRoom (s : State) (b room : Nat) (f : Room → Room) : State :=
  s.modPeer b fun p => { p with rooms := tmod none p.rooms room fun r => r.map f }

/-- REPORT. -/
def State.recvReport (s : State) (n room ev st : Nat) (seen : BitVec 4) : Option State :=
  let b := s.peerOf n
  match tget none (s.peer b).rooms room with
  | none => none
  | some r =>
    let here := r.event = ev && (s.side ev).room = some (BitVec.ofNat 2 b, BitVec.ofNat 12 room)
    if here && s.busy ev then
      some (s.block (.report (BitVec.ofNat 2 n) (BitVec.ofNat 16 room) (BitVec.ofNat 17 ev) (BitVec.ofNat 8 st) seen))
    else
      let s := if here then s.awayReport ev b st seen else s.modPeer b fun p => { p with stray := true }
      some (if st = 4 || st = 5 then (s.markRoom b room fun x => { x with reported := true }).freeRooms b else s)

/-- RETURN. -/
def State.recvReturn (s : State) (n : Nat) (rooms : List Nat) : State :=
  let b := s.peerOf n
  (rooms.foldl (fun s r => s.markRoom b r fun x => { x with returned := true }) s).freeRooms b

/-- GRANT. -/
def State.recvGrant (s : State) (n g : Nat) : State :=
  let b := s.peerOf n
  (s.modPeer b fun p => { p with granted := BitVec.ofNat 13 (min g 4096), valid := true }).sendWaiting b

/-- This block's grant to peer b. -/
def State.grantTo (s : State) (b : Nat) : Nat := (fld s.cu.roomGrant (13 * b) 13).toNat

/-- Send the peer at port n its grant (12 R279). -/
def State.sendGrant (s : State) (n : Nat) : State :=
  let b := s.peerOf n
  let g := s.grantTo b
  (s.modPeer b fun p => { p with given := if p.given.toNat < g then BitVec.ofNat 13 g else p.given }).queueRsp n (slotGrant g)

/-- A write of CUR_ROOM_GRANT (12 Table 12-7). -/
def State.roomGrantWrite (s : State) (h : HpAttr) (v : Word) : State :=
  let sum := ((List.range 4).map fun b => if b = s.gl.index.toNat then 0 else (fld v (13 * b) 13).toNat).sum
  if 4096 < sum then s.deny h
  else
    let s := { s with cu.roomGrant := fld v 0 52 }
    ((List.range 4).foldl (fun s n => if (s.port n).state = .active then s.sendGrant n else s) s).ok h

/-! ### The mirror (12 R288 to R290) -/

/-- Mirror slots received and not yet acknowledged. -/
def State.mirrorHeld (s : State) : Nat := 2 * s.cu.mirrorIn.length

/-- The port carries the mirror. -/
def State.mirrorPort (s : State) (n : Nat) : Bool :=
  s.cu.pairEn && (n = s.cu.pairPort.toNat || (s.cu.pair = .moving && n = s.cu.oldPort.toNat))

/-- MIRROR: a slot and its data slot. -/
def State.recvMirror (s : State) (n : Nat) (i : MirrorItem) : Option State :=
  if !s.mirrorPort n || 4096 < s.mirrorHeld + 2 then none
  else some { s with cu.mirrorIn := s.cu.mirrorIn ++ [i] }

/-- A restore request (13 R297). -/
def MirrorItem.request (i : MirrorItem) : Bool := i.kind.toNat ≤ 1 && i.data = BitVec.allOnes 128

/-- The entry that 16 data bytes hold. -/
def entryOfData (d : BitVec 128) : Entry :=
  entryOfWords ((EvState.ofCode (fld d 0 4).toNat).getD .faulted) (fld d 0 64) (fld d 64 64)

/-- Context c of a shadow with pair i replaced. -/
def pairInto (x : Ctx) (i : Nat) (d : BitVec 128) : Ctx :=
  ctxOfWords fun w => if w / 2 = i then fld d (64 * (w % 2)) 64 else x.word (.none, 0) w

/-- The shadow's function records (KIND 3; notes/assumptions/9.md). -/
def State.shadowFn (s : State) (i : MirrorItem) : State :=
  let f := i.item.toNat % 1024
  let k := i.item.toNat / 1024
  let put (g : Fn → Fn) : State := { s with cu.shFns := tmod {} s.cu.shFns f g }
  let d := i.data
  if k = 0 then
    let n := BitVec.ofNat 192 (i.low.toNat + 2 ^ 64 * d.toNat)
    let st : FnState := match (fld n 0 3).toNat with
      | 0 => .absent | 1 => .inService | 2 => .reset | 3 => .frozen | 4 => .saving | _ => .restoring
    put fun x => { x with
      state := st, lodgBase := fld n 12 9, lodgN := fld n 24 9, ledgBase := fld n 36 8, ledgN := fld n 48 9,
      nqBase := fld n 60 10, nqN := fld n 72 7, vecBase := fld n 84 11, vecN := fld n 96 9, priCeil := fld n 108 12,
      share := fld n 120 8, enable := bit n 132, fmask := bit n 133, index := fld n 144 2, user := fld n 156 36 }
  else if k ≤ 1023 then
    put fun x => x.modNq (k - 1) fun q => { q with
      base := i.low, enable := bit d 0, logsize := fld d 1 4, prod := fld d 5 16, phase := bit d 21, cons := fld d 22 16 }
  else
    put fun x => x.modVec (k - 1024) fun v => { v with addr := i.low, data := fld d 0 32, ctl := fld d 32 32, pending := bit d 64 }

/-- The uncorrectable words of an item that was being restored have their outcome (13 R303, Table 13-2). -/
def State.settleOwed (s : State) (hit : BitVec 5 × BitVec 19 → Bool) (outcome : BitVec 3) : State :=
  let l := s.er.owed.filter hit
  l.foldl (fun s p => s.errUncorr p.1.toNat p.2.toNat outcome) { s with er.owed := s.er.owed.filter fun p => !hit p }

/-- The owed word lies in entry e, or in context c. -/
def owedEntry (e : Nat) (p : BitVec 5 × BitVec 19) : Bool := p.1 = 1 && p.2.toNat = e
def owedCtx (c : Nat) (p : BitVec 5 × BitVec 19) : Bool := p.1 = 4 && p.2.toNat % 4096 = c

/-- The restore of own entry e arrives: VERSION one greater than the shadow's. -/
def State.restoreEntry (s : State) (e : Nat) (x : Entry) : State :=
  let was := s.dispatchable e
  let s := { s with cu.unrestored := s.cu.unrestored.filter (· ≠ Item.entry e) }
  let s := (s.setEntry e { x with version := x.version + 1 }).modSide e fun d => { d with wait := false }
  ((s.dispUpkeep was e).countRestored).settleOwed (owedEntry e) 1

/-- One word pair of the restore of own context c arrives; the last of four installs it. -/
def State.restoreCtx (s : State) (c i : Nat) (d : BitVec 128) : State :=
  let x := pairInto (tget {} s.cu.shCtxs c) i d
  let left := s.cu.unrestored.erase (Item.ctx c)
  let s := { s with cu.unrestored := left, cu.shCtxs := tset {} s.cu.shCtxs c x }
  if left.contains (.ctx c) then s
  else
    ({ s.setCtx c { x with version := x.version + 1 } with
      cu.shCtxs := tset {} s.cu.shCtxs c {}, lg.waits := tset false s.lg.waits c false }).countRestored.settleOwed
        (owedCtx c) 1

/-- Apply one item of a group (12 R288, 13 R297). -/
def State.applyItem (s : State) (i : MirrorItem) : State :=
  let k := i.item.toNat
  if i.request then
    if i.kind = 0 then s.sendGroup [entryItem k (tget {} s.cu.shEntries k)]
    else s.sendGroup [ctxItem (k % 4096) (k / 4096) (tget {} s.cu.shCtxs (k % 4096))]
  else if i.kind = 0 then
    if s.cu.unrestored.contains (.entry k) then s.restoreEntry k (entryOfData i.data)
    else
      let x := entryOfData i.data
      { s with
        cu.shEntries := tset {} s.cu.shEntries k x,
        cu.shHolds := if x.state = .heldCurfew then s.cu.shHolds else s.cu.shHolds.filter fun h => h.event ≠ k }
  else if i.kind = 1 then
    let c := k % 4096
    if s.cu.unrestored.contains (.ctx c) then s.restoreCtx c (k / 4096) i.data
    else { s with cu.shCtxs := tset {} s.cu.shCtxs c (pairInto (tget {} s.cu.shCtxs c) (k / 4096) i.data) }
  else if i.kind = 2 then
    let h : Hold := { event := k, p := fld i.low 0 48, j := if bit i.low 56 then some (fld i.low 48 8) else none,
                      mark := bit i.low 57, cls := fld i.low 58 3, order := s.cf.nextOrd }
    { s with cf.nextOrd := s.cf.nextOrd + 1, cu.shHolds := s.cu.shHolds.filter (fun g => g.event ≠ k) ++ [h] }
  else if i.kind = 3 then s.shadowFn i
  else s

/-- MIRROR_END: the group, its items counted by COUNT, is applied whole, or discarded while SHADOW_LOST is set, and acknowledged
either way (13 R301). It waits behind a group that waits. -/
def State.recvMirrorEnd (s : State) (n : Nat) (seq count : BitVec 16) : Option State :=
  let waits : Bool := s.blocked.any fun c => match c with | .mirrorEnd _ _ _ => true | _ => false
  if !s.mirrorPort n || 4096 < s.mirrorHeld + 1 then none
  else if waits then some (s.block (.mirrorEnd (BitVec.ofNat 2 n) seq count))
  else
    let items := s.cu.mirrorIn.take (count.toNat / 2)
    let s := { s with cu.mirrorIn := s.cu.mirrorIn.drop (count.toNat / 2) }
    let s := if s.er.shadow then s else items.foldl (fun s i => s.applyItem i) s
    some (s.queueRsp n (slotMirrorAck seq.toNat count.toNat))

/-- While MOVING with the backlog drained, the mirror resumes on an ACTIVE new port once the partner has named the port linked to it (12
R290). No message says that it has: a free value does, asked whenever something comes in by the new port (notes/assumptions/37.md). -/
def State.finishMove (s : State) : State :=
  if s.cu.pair = .moving && s.cu.backlog = 0 && (s.port s.cu.pairPort.toNat).state = .active then
    let t := s.draw
    if Config.partnerNamed s.free then { t with cu.pair := .paired }.flushMirror t.cu.mirrorQ.length else t
  else s

/-- MIRROR_ACK: buffer room and held egress are released. -/
def State.recvMirrorAck (s : State) (seq freed : BitVec 16) : State :=
  let t := ({ s with cu.ackedNo := seq, cu.backlog := BitVec.ofNat 13 (s.cu.backlog.toNat - freed.toNat) }).finishMove
  t.flushMirror t.cu.mirrorQ.length

/-- Port n has become ACTIVE: pairing begins where it is the mirror port and both blocks' stores are sealed (12 R290). No message carries
the partner's seal: a free value says whether it has sealed (notes/assumptions/37.md). -/
def State.tryPair (s : State) (n : Nat) : State :=
  if s.cu.pairEn && s.cu.pair = .waiting && s.st.sealed && n = s.cu.pairPort.toNat then
    let t := s.draw
    if Config.partnerSealed s.free then { t with cu.pair := .paired } else t
  else if n = s.cu.pairPort.toNat then s.finishMove
  else s

/-! ### Rooms of a link that is down (12 R286) -/

/-- A staged FWD to block b has no room any more. -/
def Effect.unroom (b : Nat) (f : Effect) : Effect :=
  match f with
  | .fwd e t rm pay keep => if (fld t 8 2).toNat = b then .fwd e t none pay keep else .fwd e t rm pay keep
  | g => g

/-- The staged effects of every run lose the rooms reserved at block b. -/
def State.unroomAll (s : State) (b : Nat) : State :=
  if (s.peer b).reserved = [] then s
  else
    { s.modPeer b fun p => { p with reserved := [] } with
      pa.runs := tmap none s.pa.runs fun _ o => o.map fun x =>
        { x with effects := x.effects.map (Effect.unroom b), check.own := x.check.own.map (Effect.unroom b) } }

/-- The visitors of home block b that are not claimed leave; a claimed one's later complete is a stray. -/
def State.abandonVisitors (s : State) (b : Nat) : State :=
  (s.rn.visitors.filterMap (·.2)).foldl (fun s v =>
    if v.home.toNat ≠ b then s
    else if v.state = .claimed then
      let c := visCand b v.room.toNat
      let s := s.setVisitor (visKey b v.room.toNat) none
      match v.holder with
      | some t => (s.modTarget t.toNat fun g => { g with held := g.held.filter fun h => h.cand ≠ c }).settle t.toNat
      | none => s
    else s.removeVisitor v) s

/-- Both ends abandon the rooms of block b: the entries there wait, the visitors from there leave, and nothing is reported of them. -/
def State.abandonRooms (s : State) (b : Nat) : State :=
  let away := (s.peer b).rooms.filterMap fun p => p.2.map (·.event)
  let s := s.unroomAll b
  let s := away.foldl (fun s e =>
    match (s.side e).room with
    | some (c, _) => if c.toNat = b then s.abandonEntry e b else s
    | none => s) s
  (s.abandonVisitors b).modPeer b fun p => { p with rooms := [], reports := [], returns := [], given := 0 }

/-! ### Promotion (12 R291, R292, Table 12-5) -/

/-- A shadow entry enters the table. -/
def State.promoteEntry (s : State) (e : Nat) (x : Entry) : State :=
  let taken := x.state = .offered || x.state.taken
  let y := { x with state := if taken then .queued else x.state, run := false,
                    version := if taken then x.version + 1 else x.version }
  let s := s.setEntry e y
  let s := if taken then (s.modSide e fun d => { d with replaced := true }).gbState e x y Stim.reoffer.code 0 else s
  let s := s.dispUpkeep false e
  if y.state = .queued then s.place e none else s

/-- Own REMOTE entries that wait for the partner, whose rooms there have been given up, are placed here. -/
def State.placeWaiting (s : State) (b : Nat) : State :=
  let w := sortBy (fun a c => s.candOrder a < s.candOrder c) (s.peer b).waiting
  w.foldl (fun s e => s.place e none) (s.modPeer b fun p => { p with waiting := [] })

/-- Promote the shadow; auto says that AUTO or ZPROMOTE did (13 R301 may forbid it). -/
def State.promote (s : State) (auto : Bool) : State :=
  if s.cu.pair ≠ .broken || s.er.shadow then s
  else
    let b := s.cu.partner.toNat
    let s := { s with cu.mirrorIn := [], gl.aliasV := true, gl.alias_ := s.cu.partner, cu.pair := .promoted }
    let s := s.cu.shFns.foldl (fun s p => s.modFn p.1 fun old => { p.2 with index := s.gl.index, gen := old.gen + 1 }) s
    let s := s.cu.shCtxs.foldl (fun s p => s.setCtx p.1 p.2) s
    let held : List Hold := s.cu.shHolds.map fun h => { h with mark := h.mark || s.fallback }
    let s := { s with cf.holds := s.cf.holds ++ held }
    let s := s.cu.shEntries.foldl (fun s p => s.promoteEntry p.1 p.2) s
    let s := ((s.abandonRooms b).placeWaiting b).sendDue
    let s := { s with cu.shEntries := [], cu.shCtxs := [], cu.shFns := [], cu.shHolds := [] }
    s.internal srcPairFailover (pack [(2, b), (1, b2n auto)])

/-- An item that waited for the partner is lost (13 R296, R297). -/
def State.loseItem (s : State) (i : Item) : State :=
  match i with
  | .entry e => (s.faultEntry e).settleOwed (owedEntry e) 0
  | .ctx c => (s.faultCtx c).settleOwed (owedCtx c) 0

/-- The items of groups whose MIRROR_END has come and waits; those after them are of a group not yet closed (12 R291). -/
def State.closedItems (s : State) : Nat :=
  (s.blocked.map fun c => match c with | .mirrorEnd _ _ n => n.toNat / 2 | _ => 0).sum

/-- The closed groups that wait take effect, unless SHADOW_LOST is set. -/
def State.applyClosed (s : State) : State :=
  let items := s.cu.mirrorIn.take s.closedItems
  let s := { s with blocked := s.blocked.filter fun c => match c with | .mirrorEnd _ _ _ => false | _ => true }
  if s.er.shadow then s else items.foldl (fun s i => s.applyItem i) s

/-- The mirror link is down: the groups not yet closed are discarded, the pair is BROKEN, and promotion follows where the configuration asks
for it. -/
def State.breakPair (s : State) (peerZeroised : Bool) : State :=
  let s := s.applyClosed
  let lost := s.cu.unrestored.eraseDups
  let own := lost.filter fun i => match i with | .entry _ => true | .ctx c => s.ctxWait c
  let s := { s with cu.pair := .broken, cu.mirrorIn := [], cu.mirrorQ := [], cu.backlog := 0, cu.ackedNo := s.cu.groupNo,
                    cu.unrestored := [],
                    cu.shCtxs := own.foldl (fun t i => match i with | .ctx c => tset {} t c {} | .entry _ => t) s.cu.shCtxs }
  let s := own.foldl (fun s i => s.loseItem i) s
  if s.cu.pairAuto || (peerZeroised && s.cu.zpromote) then s.promote true else s

/-! ### One received slot (12 Table 12-1) -/

/-- Apply slot x of port n, received on RSP or on REQ; none where its type is reserved or no room was reserved for it. A slot of a type that
Table 12-1 gives to the other channel is taken as one of reserved TYPE: DESIGN CHOICE (notes/assumptions/54.md). -/
def State.recvSlot (s : State) (n : Nat) (rsp : Bool) (x : BitVec 128) : Option State :=
  let room := (sfld x 2 16).toNat
  if rsp then
    match (sfld x 0 8).toNat with
    | 0x11 => some (s.recvGrant n room)
    | 0x12 => some (s.recvReturn n ((List.range (min 6 (sfld x 1 8).toNat)).map fun i => (sfld x (2 * i + 4) 16).toNat))
    | 0x13 => some (s.recvMirrorAck (sfld x 2 16) (sfld x 4 16))
    | _ => none
  else match (s.port n).mirrorHead with
  | some hd =>
    let s := s.modPort n fun p => { p with mirrorHead := none }
    s.recvMirror n ⟨sfld hd 1 8, sfld hd 4 32, sfld hd 8 64, x⟩
  | none =>
    match (sfld x 0 8).toNat with
    | 0x01 => s.recvPlace n room (sfld x 4 17).toNat (sfld x 7 8).toNat (sfld x 8 12) (sfld x 10 36) (bit x 120)
    | 0x02 => s.recvUpdate n room (sfld x 4 12) (sfld x 6 36) (sfld x 11 4) (bit x 92) (bit x 93)
    | 0x03 => s.recvRecall n room
    | 0x04 => s.recvReport n room (sfld x 4 17).toNat (sfld x 7 8).toNat (sfld x 8 4)
    | 0x05 => some (s.modPort n fun p => { p with mirrorHead := some x })
    | 0x06 => s.recvMirrorEnd n (sfld x 2 16) (sfld x 4 16)
    | _ => none

end Sys2Proof.Machine
end

