-- ==== Sys2Proof/Machine/Courier.lean ====
section
/-! DEFINITION. Courier ports: states, training, maps, reconfiguration, parking, link down, and the sending and receiving of flits
(11 R257 to R277, 15 R327 to R329). -/
namespace Sys2Proof.Machine

/-! ### What waits to be sent (11 R257, 12 R284) -/

/-- The pending reports that leave by port n, as block, room and slot, at most k. -/
def State.dueReports (s : State) (n k : Nat) : List (Nat × Nat × BitVec 128) :=
  (((List.range 4).map fun b =>
    if s.route b = some n then (s.peer b).reports.filterMap fun r => r.2.map fun x => (b, r.1, x) else []).flatten).take k

/-- The RETURN slots due by port n: up to six rooms each. -/
def State.dueReturn (s : State) (n : Nat) : Option (Nat × List (BitVec 12)) :=
  ((List.range 4).find? fun b => s.route b = some n && (s.peer b).returns ≠ []).map fun b => (b, (s.peer b).returns.take 6)

/-- REQ slots wait at port n. -/
def State.reqWaits (s : State) (n : Nat) : Bool := (s.port n).reqQ ≠ [] || s.dueReports n 1 ≠ []

/-- Port n has sequenced flits to send. -/
def State.toSend (s : State) (n : Nat) : Bool :=
  s.reqWaits n || (s.port n).rspQ ≠ [] || (s.port n).linkQ ≠ [] || (s.dueReturn n).isSome

/-! ### Good lanes and maps (11 R266) -/

/-- The good-lane set of port p. -/
def Port.good (p : Port) : BitVec 5 := p.graded &&& ~~~p.bad &&& ~~~p.laneDis

def lanesOf (m : BitVec 5) : List Nat := (List.range 5).filter fun k => bit m k

/-- The map and width that R266 gives for the sets of both ends; none where no lane is shared. -/
def linkMap (a b : BitVec 5) (ma mb : BitVec 3) : Option (BitVec 5 × BitVec 3) :=
  let l := lanesOf (a &&& b)
  let ok (w : Nat) : Bool := w ≤ l.length && w ≤ ma.toNat && w ≤ mb.toNat
  let m (w : Nat) : BitVec 5 := (l.take w).foldl (fun m k => setBit m k true) 0
  match [4, 2, 1].find? ok with
  | some w => some (m w, BitVec.ofNat 3 w)
  | none => none

def Port.nextMap (p : Port) : Option (BitVec 5 × BitVec 3) := linkMap p.good p.peerGood p.maxWidth p.peerMaxw

/-- The map that a port last used, or uses. -/
def Port.lane (p : Port) (k : Nat) : Lane := tget {} p.lanes k
def Port.modLane (p : Port) (k : Nat) (f : Lane → Lane) : Port := { p with lanes := tmod {} p.lanes k f }

/-- The link of port p is up: ACTIVE, or a reconfiguration or PARK of one that was. -/
def Port.linked (p : Port) : Bool :=
  p.state = .active || p.state = .retrain || p.state = .park || ((p.state = .eq || p.state = .align) && p.kindFull)

/-! ### Loopbacks that end (15 R328, Table 15-10) -/

/-- A loopback or RESPOND of port n is in progress. -/
def State.looping (s : State) (n : Nat) : Bool := (s.loopb n).running || (s.loopb n).respond

/-- End the loopback of port n with a code. -/
def State.endLoop (s : State) (n : Nat) (code : BitVec 4) : State :=
  if s.looping n then
    (s.modLoop n fun l => { l with respond := false, running := false, state := 2, code := code }).modPort n fun p =>
      { p with buffer := [], replayAt := none, nak := false }
  else s

/-! ### Link down and entry to states -/

/-- Forget what is queued and stored for port p. -/
def Port.flush (p : Port) : Port :=
  { p with
    buffer := [], replayAt := none, nakAck := none, nak := false, reqQ := [], rspQ := [], linkQ := [], proposal := none,
    again := false, kindFull := false, parkAsked := false, parkOwed := none, parkSeq := none, mirrorHead := none, rspRun := 0,
    map := 0, width := 0, wakeOut := none }

/-- The state a port goes to when its link goes down (11 R275). -/
def Port.downState (p : Port) : PortState := if p.enable && p.autoRetry then .detect else .off

/-- Port n's link is the one to block b: CUR_ROUTE names it, or names none and b is the peer. -/
def State.reaches (s : State) (n b : Nat) : Bool := s.route b = some n || (s.route b = none && s.peerOf n = b)

/-- The link of port n goes down for a cause (11 R275, 12 R286, R291); so does a first ALIGN that finds no lane (11 R266). -/
def State.linkDown (s : State) (n : Nat) (cause : Cause) : State :=
  let was := (s.port n).linked || cause = .noLane
  let s := s.modPort n fun p => { p.flush.retrainLanes with state := p.downState, cause := cause, kept := false }
  if !was then s
  else
    let s := (List.range 4).foldl (fun s b => if s.reaches n b then s.abandonRooms b else s) s
    let s := if s.mirrorOn && s.mirrorPort n then s.breakPair (cause = .peerZeroise) else s
    let code : Nat := match cause with
      | .none => 0 | .ackTmo => 1 | .noLane => 2 | .quota => 3 | .peerZeroise => 4 | .disable => 5 | .sameIndex => 6 | .revision => 7
    s.internal srcCourierDown (pack [(2, n), (3, code)])

/-- Enter RETRAIN, or EQ where every lane is equalised again (11 R267, R273). A FULL proposal of this end that is dropped here is made again
once the link is ACTIVE, unless a full equalisation runs first (11 R268). -/
def State.enterRetrain (s : State) (n : Nat) (full : Bool) : State :=
  s.modPort n fun p =>
    { p.retrainLanes with
      state := if full then .eq else .retrain, oldMap := p.map, oldWidth := p.width, map := 0, width := 0,
      retrains := satInc p.retrains, kindFull := full, proposal := none, parkAsked := false, replayAt := none,
      again := p.again || (match p.proposal with | some q => q.full && !full | none => false),
      linkQ := p.linkQ.filter fun m => (sfld m 0 8).toNat ≠ 1 }

/-- The PROPOSE of this end for port n, as queued. -/
def State.proposeMsg (s : State) (n : Nat) (full : Bool) : BitVec 128 :=
  let p := s.port n
  linkMsg 1 full p.good.toNat p.maxWidth.toNat s.gl.index.toNat 0

/-- Propose a reconfiguration (11 R267). A FULL asked for while a REMAP is unanswered is proposed after it. -/
def State.propose (s : State) (n : Nat) (full : Bool) : State :=
  let p := s.port n
  if p.state ≠ .active then s
  else match p.proposal with
    | some q => if full && !q.full then s.modPort n fun p => { p with again := true } else s
    | none => s.modPort n fun p =>
        { p with proposal := some ⟨full, none⟩, linkQ := p.linkQ ++ [s.proposeMsg n full], parkAsked := false,
                 parkOwed := none }

/-- Propose where R266 would now give another map. -/
def State.reviewMap (s : State) (n : Nat) : State :=
  let p := s.port n
  if p.state = .active && p.nextMap ≠ some (p.map, p.width) then s.propose n false else s

/-- Ask to park (11 R274): CUR_CMD PARK, and the power controller. -/
def State.curPark (s : State) (n : Nat) : State :=
  let p := s.port n
  if p.state = .active && p.proposal.isNone then
    s.modPort n fun p => { p with parkAsked := true, parkSeq := if p.parkAsked then p.parkSeq else none }
  else s

/-- The link of port n is ACTIVE on a map (11 R269, R272, R273, 12 R279, R286, R290); it is parked where the block is on its way to NAP
or SLEEP (14 Table 14-5 step 3). -/
def State.activate (s : State) (n : Nat) (map : BitVec 5) (width : BitVec 3) (fresh : Bool) : State :=
  let old := s.port n
  let seed (p : Port) : Port := (List.range width.toNat).foldl (fun p j =>
    match laneAt map j with
    | some k => p.modLane k fun l => { l with txKey := prbsSeed j, rxKey := prbsSeed j }
    | none => p) p
  let s := s.modPort n fun p =>
    let p := seed { p with state := .active, map := map, width := width, kindFull := false, proposal := none, again := false,
                           replayAt := if p.buffer = [] then none else some 0,
                           replays := if p.buffer = [] || fresh then p.replays else satInc p.replays, nakAck := none, kept := true,
                           winAt := s.gl.time, lanes := tmap {} p.lanes fun _ l => { l with corr := 0, blame := 0 } }
    if fresh then { p.flush with map := map, width := width, txNext := 0, rxExp := 0, tmoRun := 0, timerAt := s.gl.time } else p
  let s :=
    if fresh || (map = old.oldMap && width = old.oldWidth) then s
    else if width = old.oldWidth then s.internal srcLaneSpared (pack [(2, n), (5, old.oldMap.toNat), (5, map.toNat)])
    else s.internal srcWidthChange (pack [(2, n), (5, old.oldMap.toNat), (5, map.toNat), (3, width.toNat)])
  let s := if old.again then s.propose n true else s
  let s := if s.np.state = .entering then s.curPark n else s
  ((s.sendGrant n).sendDue).tryPair n

/-! ### Training (11 R270 to R273) -/

/-- The peer is seen in DETECT. -/
def State.peerDetected (s : State) (n : Nat) : State :=
  let p := s.port n
  if p.state = .detect then s.modPort n fun p => { p.retrainLanes with state := .eq } else s

/-- Every lane is graded: a full equalisation has run. With no good lane the port goes to DETECT; in a FULL reconfiguration the link is down
with it, cause NO_LANE, whatever AUTO_RETRY says: DEDUCED from Table 11-5 and R266 (notes/assumptions/54.md). -/
def State.eqComplete (s : State) (n : Nat) (graded : BitVec 5) : State :=
  let p := s.port n
  if p.state ≠ .eq then s
  else
    let s := s.modPort n fun p =>
      { p with
        graded := graded, bad := 0, again := false, kept := true,
        lanes := tmap {} p.lanes fun _ l => { l with corr := 0, blame := 0 } }
    if (s.port n).good ≠ 0 then s.modPort n fun p => { p.retrainLanes with state := .align }
    else if p.kindFull then (s.linkDown n .noLane).modPort n fun p => { p with state := .detect }
    else s.modPort n fun p => { p.retrainLanes with state := .detect, kept := false }

/-- A port is held in OFF by a failed check of ALIGN. -/
def State.holdOff (s : State) (n : Nat) (cause : Cause) : State :=
  (s.linkDown n cause).modPort n fun p => { p with state := .off, offHold := true, cause := cause }

/-- Every lane of a map is locked. -/
def Port.lockedOn (p : Port) (map : BitVec 5) : Bool := (lanesOf map).all fun k => (p.lane k).locked

/-- Training ends on a map: once its lanes are deskewed this end is ready for flits; the link is ACTIVE once a block has carried that ready
bit and the peer's has been seen (11 R272, R273). A lane of the map that failed to lock is bad, and training goes on. -/
def State.trainEnd (s : State) (n : Nat) (m : BitVec 5) (w : BitVec 3) (fresh : Bool) : State :=
  let p := s.port n
  if !p.lockedOn m then
    s.modPort n fun p => { p with bad := p.bad ||| (lanesOf m).foldl (fun b k => setBit b k (!(p.lane k).locked)) 0 }
  else if !p.ready then s.modPort n fun p => { p with ready := true, readyOut := false }
  else if !p.readyOut || !p.peerReady then s
  else s.activate n m w fresh

/-- A link becomes ACTIVE only while the whole block has power: in NAP the ports stay in PARK (14 Table 14-1), and at exit they train from
its step 1 and take slots once the clamps are released (Table 14-7, notes/assumptions/54.md). -/
def State.linksRise (s : State) : Bool := s.awake || (s.np.state = .entering && !s.np.saved)

/-- ALIGN ends (11 R272). -/
def State.alignComplete (s : State) (n : Nat) : State :=
  let p := s.port n
  if p.state ≠ .align || !p.peerValid || s.domainOff (portDomain n) || !s.linksRise then s
  else if p.peerIndex = s.gl.index then s.holdOff n .sameIndex
  else if fld p.peerRev 4 4 ≠ fld glbId 20 4 then s.holdOff n .revision
  else match p.nextMap with
    | none => s.linkDown n .noLane
    | some (m, w) => s.trainEnd n m w (!p.kindFull)

/-- RETRAIN ends (11 R273). -/
def State.retrainComplete (s : State) (n : Nat) : State :=
  let p := s.port n
  if p.state ≠ .retrain || !s.linksRise then s
  else match p.nextMap with
    | none => s.linkDown n .noLane
    | some (m, w) => s.trainEnd n m w false

/-- Lane k of port p is a spare: good and not in the map of an ACTIVE link. -/
def Port.spare (p : Port) (k : Nat) : Bool := p.state = .active && bit p.good k && !bit p.map k

/-- Scramble the block of a spare lane, or undo it: each block from the seed of the lane's number, as a spare has no lane position: DESIGN
CHOICE (notes/assumptions/54.md). -/
def spareScramble (k : Nat) (b : BitVec 128) : BitVec 128 :=
  BitVec.ofNat 128 (leNat (prbsBytes (prbsSeed k) (leBytes 16 b.toNat)).2)

/-- A training block arrives on a lane (11 R271, R273); a spare's is scrambled. -/
def State.trainingBlockReceived (s : State) (n k : Nat) (blk : BitVec 128) : State :=
  let p := s.port n
  let b := if p.spare k then spareScramble k blk else blk
  if p.state = .off || p.state = .park || p.state = .detect then s
  else if !blockGood b then
    s.modPort n fun p => p.modLane k fun l => { l with lockRun := 0 }
  else
    let learn (p : Port) : Port :=
      let p := { p with peerIndex := sfld b 3 2, peerGood := sfld b 4 5, peerMaxw := sfld b 5 3, peerRev := sfld b 6 8,
                        peerReady := bit b 57, peerValid := true, wakeOut := none }
      p.modLane k fun l =>
        let run := if p.spare k && l.locked && 1500 < s.age l.lastAt then 1 else l.lockRun + 1
        { l with lockRun := min run 3, locked := 3 ≤ run || (l.locked && run ≠ 1), lastAt := s.gl.time }
    let s := s.modPort n learn
    if p.state = .active && bit p.map k then s.enterRetrain n (bit b 56)
    else if p.state = .retrain && bit b 56 then
      s.modPort n fun p => { p.retrainLanes with state := .eq, kindFull := true }
    else s

/-- A port's state as its training blocks carry it (11 Table 11-5). -/
def PortState.code : PortState → Nat
  | .off => 0 | .detect => 1 | .eq => 2 | .align => 3 | .active => 4 | .retrain => 5 | .park => 6

/-- The training block that lane k of port n sends: KIND FULL while a full equalisation is asked for, and this end's ready bit. -/
def State.blockOf (s : State) (n k : Nat) : BitVec 128 :=
  let p := s.port n
  trainingBlock k p.state.code s.gl.index.toNat p.good.toNat p.maxWidth.toNat p.kindFull p.ready (Config.txCoefficients (5 * n + k))

/-- Physical lane k carries bytes. -/
def Port.drive (p : Port) (k : Nat) (l : List Byte) : Port := { p with line := tset [] p.line k (lineSyms l) }

/-- The block that a spare lane sends every 1 µs, scrambled as a map is in force (11 R271). -/
def State.spareSend (s : State) (n k : Nat) : State :=
  if (s.port n).spare k then s.modPort n fun p => p.drive k (leBytes 16 (spareScramble k (s.blockOf n k)).toNat) else s

/-- Port n trains: its lanes send training blocks back to back (11 R271). -/
def Port.trains (p : Port) : Bool := p.state = .detect || p.state = .eq || p.state = .align || p.state = .retrain

/-- One training block on each of the five lanes. -/
def State.trainSend (s : State) (n : Nat) : State :=
  s.modPort n fun p =>
    { (List.range 5).foldl (fun (q : Port) k => q.drive k (leBytes 16 (s.blockOf n k).toNat)) p with readyOut := p.ready }

/-- A spare lane misses its bound (11 R271). -/
def State.spareLost (s : State) (n k : Nat) : State :=
  let p := s.port n
  if p.spare k && (p.lane k).locked && 1500 < s.age (p.lane k).lastAt then
    s.modPort n fun p => p.modLane k fun l => { l with locked := false, lockRun := 0 }
  else s

/-- Lock is lost on a lane of the map (11 R273). -/
def State.lockLost (s : State) (n k : Nat) : State :=
  let p := s.port n
  if p.state = .active && bit p.map k then s.enterRetrain n false else s

/-- Lanes that the counts of the window make bad (11 R256). -/
def Port.worn (p : Port) : List Nat :=
  (lanesOf p.map).filter fun k =>
    let l := p.lane k
    (p.blameThr ≠ 0 && p.blameThr ≤ l.blame) || (p.corrThr ≠ 0 && p.corrThr ≤ l.corr)

/-- Mark worn lanes bad and propose. -/
def State.wearOut (s : State) (n : Nat) : State :=
  let w := (s.port n).worn.filter fun k => !bit (s.port n).bad k
  if w = [] then s
  else (s.modPort n fun p => { p with bad := w.foldl (fun b k => setBit b k true) p.bad }).propose n false

/-- The window ends (11 R256). -/
def State.laneWindowEnd (s : State) (n : Nat) : State :=
  let p := s.port n
  if p.state = .active && 1000 * max 1 p.win.toNat ≤ s.age p.winAt then
    s.modPort n fun p => { p with winAt := s.gl.time, lanes := tmap {} p.lanes fun _ l => { l with corr := 0, blame := 0 } }
  else s

/-! ### LINK messages (11 R267, R268, R274, R276) -/

/-- A received PROPOSE whose flit had sequence number seq. -/
def State.recvPropose (s : State) (n : Nat) (m : LinkMsg) (seq : W12) : State :=
  let p := s.port n
  if p.state ≠ .active then s
  else
    let s := s.modPort n fun p =>
      { p with peerGood := m.good, peerMaxw := m.maxw, peerIndex := m.index, parkAsked := false, parkOwed := none }
    if p.proposal.isSome && s.gl.index < m.index then s
    else
      let again := match p.proposal with | some q => q.full && !m.full | none => false
      s.modPort n fun p =>
        { p with
          again := p.again || again, proposal := none,
          linkQ := (p.linkQ.filter fun x => (sfld x 0 8).toNat ≠ 1) ++
            [linkMsg 2 m.full p.good.toNat p.maxWidth.toNat s.gl.index.toNat seq.toNat] }

/-- A received ANSWER. -/
def State.recvAnswer (s : State) (n : Nat) (m : LinkMsg) (pseq : W12) : State :=
  let p := s.port n
  match p.proposal with
  | some q =>
    if p.state = .active && q.seq = some pseq then
      (s.modPort n fun p => { p with peerGood := m.good, peerMaxw := m.maxw, peerIndex := m.index }).enterRetrain n m.full
    else s
  | none => s

/-- A received PARK_REQ. -/
def State.recvParkReq (s : State) (n : Nat) (seq : W12) : State :=
  let p := s.port n
  if p.state = .active && p.proposal.isNone then s.modPort n fun p => { p with parkOwed := some seq } else s

/-- The peer drives CURn_WAKE, for at most 100 µs (16 R356). -/
def State.wakeSeen (s : State) (n : Nat) : Bool :=
  match (s.port n).wakeIn with | some t => s.age t ≤ 100000 | none => false

/-- Port n leaves PARK (11 R274). -/
def State.leavePark (s : State) (n : Nat) : State := s.unpark n

/-! ### Wakes latched during the entry to NAP or SLEEP (14 R313, R314, Table 14-13) -/

/-- The flags of PWR_WAKE for a source. -/
def State.wakeFlags (s : State) (w : WakeSrc) : State :=
  match w with
  | .wired l => { s with np.wWired := true, np.wLine := l }
  | .host => { s with np.wHost := true }
  | .engine c => { s with np.wEngine := true, np.wChannel := c }
  | .courier n => { s with np.wCourier := true, np.wPort := n }
  | .alarm => { s with np.wAlarm := true }
  | .internal => { s with np.wInternal := true }

/-- A wake that arrives during ENTERING is latched: exit begins when entry completes. -/
def State.latchWake (s : State) (w : WakeSrc) : State :=
  let s := { s with np.wEntry := true, np.early := satInc s.np.early }
  if s.np.wakeDue.isSome then s else { s.wakeFlags w with np.wakeDue := some w }

/-- Port n goes to PARK, and leaves it at once where it has flits to send or the peer drives CURn_WAKE (11 R274, 16 R356). -/
def State.enterPark (s : State) (n : Nat) : State :=
  let t := s.modPort n fun p =>
    { p with
      state := .park, oldMap := p.map, oldWidth := p.width, map := 0, width := 0, parkAsked := false, parkOwed := none,
      parkSeq := none, replayAt := none }
  if !(t.toSend n || t.wakeSeen n) then t
  else if t.np.state = .entering && t.wakeSeen n then t.latchWake (.courier (BitVec.ofNat 2 n))
  else t.leavePark n

/-- A received PARK_ACK. -/
def State.recvParkAck (s : State) (n : Nat) (pseq : W12) : State :=
  let p := s.port n
  if p.state = .active && p.parkSeq = some pseq then s.enterPark n else s

/-- A received ZEROISE message. -/
def State.recvZeroise (s : State) (n : Nat) : State := if (s.port n).linked then s.linkDown n .peerZeroise else s

/-- A LINK message of an accepted flit. -/
def State.recvLink (s : State) (n : Nat) (m : BitVec 128) (seq : W12) : State :=
  match (sfld m 0 8).toNat with
  | 1 => s.recvPropose n (linkFields m) seq
  | 2 => s.recvAnswer n (linkFields m) (sfld m 5 12)
  | 3 => s.recvParkReq n seq
  | 4 => s.recvParkAck n (sfld m 5 12)
  | 5 => s.recvZeroise n
  | _ => s

/-! ### Receiving (11 R254 to R263) -/

/-- A REQ slot received during ENTERING counts as a latched Courier wake (14 R314). -/
def State.reqLatch (s : State) (n : Nat) : State :=
  if s.np.state = .entering then s.latchWake (.courier (BitVec.ofNat 2 n)) else s

/-- A slot without room: counted, and the link goes down (11 R258). -/
def State.quotaDown (s : State) (n : Nat) : State :=
  (s.modPort n fun p => { p with quotaCnt := satInc p.quotaCnt }).linkDown n .quota

/-- The result of a received slot at port n: none is a slot without room. Nothing is taken once the link is down. -/
def State.received (s : State) (n : Nat) (t : Option State) : State :=
  if (s.port n).linked then (match t with | some t => t | none => s.quotaDown n) else s

/-- The command that slot x is by itself, for the slots that may have to wait. -/
def State.slotCmd (s : State) (n : Nat) (rsp : Bool) (x : BitVec 128) : Instr :=
  let port := BitVec.ofNat 2 n
  if rsp || (s.port n).mirrorHead.isSome then .flitReceive port []
  else match (sfld x 0 8).toNat with
    | 4 => .report port (sfld x 2 16) (sfld x 4 17) (sfld x 7 8) (sfld x 8 4)
    | 6 => .mirrorEnd port (sfld x 2 16) (sfld x 4 16)
    | _ => .flitReceive port []

/-- A slot of an accepted flit on REQ or RSP. -/
def State.takeSlotIn (s : State) (n : Nat) (rsp : Bool) (x : BitVec 128) : State :=
  fin s (s.slotCmd n rsp x) (s.received n (s.recvSlot n rsp x))

/-- ACK and NAK of a passing flit (11 R262, R263). An ACK of the flit before the oldest stored one frees nothing; its NAK counts. -/
def State.recvAck (s : State) (n : Nat) (a : W12) (nak : Bool) : State :=
  let p := s.port n
  match p.buffer with
  | [] => s
  | o :: _ =>
    let d := (a - o.seq).toNat
    let valid := d < p.buffer.length
    let s := if !valid then s
      else s.modPort n fun p =>
        let left := p.buffer.drop (d + 1)
        { p with
          buffer := left, tmoRun := 0, timerAt := s.gl.time, nakAck := none,
          replayAt := match p.replayAt with
            | some i => if left = [] then none else some (i - (d + 1))
            | none => none }
    let p := s.port n
    if nak && (valid || a + 1 = o.seq) && p.nakAck ≠ some a && p.buffer ≠ [] then
      s.modPort n fun p => { p with replayAt := some 0, nakAck := some a, replays := satInc p.replays }
    else s

/-- An accepted flit's content. -/
def State.recvBody (s : State) (n : Nat) (h : FlitHead) (l : List Byte) : State :=
  let slots := ((List.range 7).filter fun i => bit h.slotv i).map (flitSlot l)
  if h.type = 1 then
    if h.vc = 0 then slots.foldl (fun s x => (s.takeSlotIn n false x).reqLatch n) s
    else if h.vc = 1 then slots.foldl (fun s x => s.takeSlotIn n true x) s
    else s
  else fin s (.flitReceive (BitVec.ofNat 2 n) []) (s.recvLink n (flitSlot l 0) h.seq)

/-- A passing flit (11 R260). -/
def State.recvPassed (s : State) (n : Nat) (l : List Byte) : State :=
  let h := flitHead l
  let s := s.recvAck n h.ack h.nak
  let p := s.port n
  if h.type = 1 || h.type = 2 then
    if h.seq = p.rxExp then
      (s.modPort n fun p => { p with rxExp := p.rxExp + 1, nak := false }).recvBody n h l
    else if (p.rxExp - 1 - h.seq).toNat < 512 then s.modPort n fun p => { p with duplicate := satInc p.duplicate }
    else s.modPort n fun p => { p with nak := true }
  else if h.type = 0 && h.seq ≠ p.rxExp - 1 && (h.seq - p.rxExp).toNat < 512 then s.modPort n fun p => { p with nak := true }
  else s

/-- The wire bytes that the lanes of the map carry: symbols to bytes, each lane's descrambled (11 R251, R252). -/
def Port.wireIn (p : Port) (lines : List (List Pam4)) : List Byte :=
  let w := max 1 p.width.toNat
  let per := (List.range w).map fun j => match laneAt p.map j with
    | some k => (prbsBytes (p.lane k).rxKey (symBytes (lines[k]?.getD []))).2
    | none => []
  (List.range 136).map fun i => (per[i % w]?.getD [])[i / w]?.getD 0

/-- Advance the receive scramblers of the map's lanes by the bytes each carried. -/
def Port.rxAdvance (p : Port) : Port :=
  (lanesOf p.map).foldl (fun p k =>
    p.modLane k fun l => { l with rxKey := (prbsBytes l.rxKey (List.replicate (136 / max 1 p.width.toNat) 0)).1 }) p

/-- Count corrections against lanes. -/
def Port.countFixed (p : Port) (fixed : List Nat) : Port :=
  let p := { p with corrected := satAdd p.corrected fixed.length }
  fixed.foldl (fun p w =>
    match laneAt p.map (w % max 1 p.width.toNat) with
    | some k => p.modLane k fun l => { l with corr := satInc l.corr }
    | none => p) p

/-- Count blame against lanes. -/
def Port.countBlame (p : Port) (pos : List Nat) : Port :=
  pos.foldl (fun p j => match laneAt p.map j with
    | some k => p.modLane k fun l => { l with blame := satInc l.blame }
    | none => p) p

/-- Count one checked block of a loopback; it ends after FLITS blocks (15 R329). -/
def State.countLoop (s : State) (n : Nat) (good : Bool) : State :=
  let s := s.modLoop n fun l =>
    { l with ok := if good then satInc l.ok else l.ok, bad := if good then l.bad else satInc l.bad, checked := l.checked + 1 }
  let l := s.loopb n
  if l.flits ≠ 0 && l.flits.toNat ≤ l.checked then s.endLoop n 0xA else s

/-- The slots of test flit q of a loopback. -/
def loopSlots (q : W12) : List (BitVec 128) := (List.range 7).map (Config.loopPattern q.toNat)

/-- A flit comes back in a loopback: its ACK and NAK act on the stored flits, and it is checked for FEC, CRC, sequence and pattern; its slots
go nowhere (15 R327, R329). A duplicate that a replay brings is not counted again. -/
def State.loopFlit (s : State) (n : Nat) (r : Received) : State :=
  let h := flitHead r.flit
  if !r.pass then (s.modPort n fun p => { p with failed := satInc p.failed, nak := true }).countLoop n false
  else
    let s := s.recvAck n h.ack h.nak
    let p := s.port n
    if h.type ≠ 1 then s
    else if h.seq = p.rxExp then
      (s.modPort n fun p => { p with rxExp := p.rxExp + 1, nak := false }).countLoop n
        ((List.range 7).map (flitSlot r.flit) = loopSlots h.seq)
    else if (p.rxExp - 1 - h.seq).toNat < 512 then s.modPort n fun p => { p with duplicate := satInc p.duplicate }
    else (s.modPort n fun p => { p with nak := true }).countLoop n false

/-- Port p on the lanes that a loopback uses, at the width that their count allows (15 R329). -/
def Port.onLoop (p : Port) (l : Loopback) : Port :=
  match linkMap l.lanes l.lanes 4 4 with
  | some (m, w) => { p with map := m, width := w }
  | none => p

/-- The same port off those lanes again. -/
def Port.offLoop (p : Port) : Port := { p with map := 0, width := 0 }

/-- Wire bytes that came back over the PHY: FEC and CRC are judged as of any flit. -/
def State.loopLines (s : State) (n : Nat) (lines : List (List Pam4)) : State :=
  let p := (s.port n).onLoop (s.loopb n)
  let r := receiveWire (p.wireIn lines)
  (s.modPort n fun _ => (p.rxAdvance.countFixed r.fixed).offLoop).loopFlit n r

/-- A flit whose MIRROR slots fail their read-back in the mirror buffer (13 R295). -/
def Port.writesMirror (p : Port) (l : List Byte) : Bool :=
  let h := flitHead l
  h.type = 1 && h.vc = 0 && h.seq = p.rxExp && (p.mirrorHead.isSome ||
    ((List.range 7).filter fun i => bit h.slotv i).any fun i => let t := (sfld (flitSlot l i) 0 8).toNat; t = 5 || t = 6)

/-- One flit time's symbols arrive on the five lanes of port n. A RESPOND port sends them back lane by lane; a loopback at L2 or L3 checks
them, nothing at all counting as a bad block; an ACTIVE port takes the flit. -/
def State.flitReceived (s : State) (n : Nat) (lines : List (List Pam4)) : State :=
  let p := s.port n
  let l := s.loopb n
  if p.state = .off && l.respond then
    s.modPort n fun p => lines.zipIdx.foldl (fun (p : Port) x => { p with line := tset [] p.line x.2 x.1 }) p
  else if p.state = .off && l.running && !l.pattern && 2 ≤ l.depth.toNat then
    if lines.all (· = []) then s.countLoop n false else s.loopLines n lines
  else if p.state ≠ .active || s.domainOff (portDomain n) || lines.all (· = []) then s
  else
    let r := receiveWire (p.wireIn lines)
    let s := s.modPort n Port.rxAdvance
    if r.pass && !(p.badSlot && p.writesMirror r.flit) then
      let s := ((s.modPort n fun p => p.countFixed r.fixed).recvPassed n r.flit).wearOut n
      if s.cu.pair = .moving && n = s.cu.pairPort.toNat then s.finishMove else s
    else
      (s.modPort n fun p =>
        { p.countBlame (if r.pass then [] else blamed p.width.toNat r.flit) with
          failed := satInc p.failed, nak := true, badSlot := if r.pass then false else p.badSlot }).wearOut n

/-! ### Sending (11 R257, R259, R261, R265) -/

/-- Store a new sequenced flit. -/
def Port.store (p : Port) (b : FlitBody) (now : Word) : Port :=
  { p with
    buffer := p.buffer ++ [⟨p.txNext, b⟩], txNext := p.txNext + 1, timerAt := if p.buffer = [] then now else p.timerAt }

/-- A report leaves: its RETURN follows a final one (12 R284). -/
def State.reportSent (s : State) (r : Nat × Nat × BitVec 128) : State :=
  let st := (sfld r.2.2 7 8).toNat
  s.modPeer r.1 fun p =>
    { p with
      reports := tset none p.reports r.2.1 none,
      returns := if st = 4 || st = 5 then p.returns ++ [BitVec.ofNat 12 r.2.1] else p.returns }

/-- Move the rooms to return into a RETURN slot. -/
def State.packReturns (s : State) (n : Nat) : State :=
  match s.dueReturn n with
  | some (b, l) =>
    (s.modPeer b fun p => { p with returns := p.returns.drop 6 }).modPort n fun p =>
      { p with rspQ := p.rspQ ++ [slotReturn (l.map (·.toNat))] }
  | none => s

/-- Rooms and mirror room that this end uses through port n have come back (11 R274). -/
def State.quotaBack (s : State) (n : Nat) : Bool :=
  ((List.range 4).all fun b => s.route b ≠ some n || (s.peer b).rooms = []) &&
    (!(s.mirrorOn && s.mirrorPort n) || s.mirrorLoad = 0)

/-- The new flit that port n sends now, stored: a LINK message, RSP or REQ slots; none: an IDLE. -/
def State.newFlit (s : State) (n : Nat) : Option (FlitBody × State) :=
  let s := s.packReturns n
  let p := s.port n
  let park := p.buffer = [] && p.reqQ = [] && p.rspQ = [] && !s.reqWaits n && p.linkQ = [] && p.proposal.isNone
  let link (m : BitVec 128) (s : State) : Option (FlitBody × State) :=
    some (.link m, s.modPort n fun p => { p with rspRun := 0 }.store (.link m) s.gl.time)
  if p.linkQ ≠ [] && p.buffer.length < 512 then
    match p.linkQ with
    | m :: rest =>
      let seq := p.txNext
      let s := s.modPort n fun p =>
        { p with
          linkQ := rest,
          proposal := if (sfld m 0 8).toNat = 1 then p.proposal.map fun q => { q with seq := some seq } else p.proposal }
      link m s
    | [] => none
  else if park && p.parkOwed.isSome then
    link (linkMsg 4 false 0 0 s.gl.index.toNat ((p.parkOwed.getD 0).toNat)) s
  else if park && p.parkAsked && p.parkSeq.isNone && s.quotaBack n then
    link (linkMsg 3 false 0 0 s.gl.index.toNat 0) (s.modPort n fun p => { p with parkSeq := some p.txNext })
  else if 508 ≤ p.buffer.length then none
  else if p.rspQ ≠ [] && !(4 ≤ p.rspRun && s.reqWaits n) then
    let x := p.rspQ.take 7
    some (.data true x, s.modPort n fun p =>
      { p with rspQ := p.rspQ.drop 7, rspRun := p.rspRun + 1 }.store (.data true x) s.gl.time)
  else if s.reqWaits n then
    let q := p.reqQ.take 7
    let reps := s.dueReports n (7 - q.length)
    let x := q ++ reps.map (·.2.2)
    let s := reps.foldl (fun s r => s.reportSent r) s
    some (.data false x, s.modPort n fun p => { p with reqQ := p.reqQ.drop 7, rspRun := 0 }.store (.data false x) s.gl.time)
  else none

/-- The header and slots of a flit with a body. -/
def bodyHead (p : Port) (seq : W12) : FlitBody → FlitHead × List (BitVec 128)
  | .data rsp l =>
    (⟨1, seq, p.rxExp - 1, if rsp then 1 else 0, p.nak, BitVec.ofNat 7 (2 ^ l.length - 1), p.map, p.width⟩, l)
  | .link m => (⟨2, seq, p.rxExp - 1, 0, p.nak, 1, p.map, p.width⟩, [m])

/-- An IDLE flit. -/
def idleHead (p : Port) : FlitHead := ⟨0, p.txNext - 1, p.rxExp - 1, 0, p.nak, 0, p.map, p.width⟩

/-- The wire bytes of lane position j at width w. -/
def laneBytes (w j : Nat) (wire : List Byte) : List Byte := (wire.zipIdx.filter fun p => p.2 % max 1 w = j).map (·.1)

/-- Put a flit on the line: its wire bytes, each lane's bytes scrambled (11 R251, R252). -/
def Port.onLine (p : Port) (h : FlitHead) (slots : List (BitVec 128)) : Port :=
  let wire := wireOf (flitBytes h slots)
  let w := p.width.toNat
  let q := (List.range w).foldl (fun (q : Port) j =>
    match laneAt p.map j with
    | some k =>
      let x := prbsBytes (q.lane k).txKey (laneBytes w j wire)
      (q.modLane k fun l => { l with txKey := x.1 }).drive k x.2
    | none => q) p
  { q with lastFlit := wire, nakSent := if h.nak then satInc p.nakSent else p.nakSent }

/-- Put a body on the line, and what follows its sending: an ANSWER enters RETRAIN, a PARK_ACK enters PARK. -/
def State.sendBody (s : State) (n : Nat) (seq : W12) (b : FlitBody) (new : Bool) : State :=
  let s := s.modPort n fun p => let h := bodyHead p seq b; p.onLine h.1 h.2
  match b with
  | .link m =>
    if new && (sfld m 0 8).toNat = 2 then s.enterRetrain n (bit m 8)
    else if new && (sfld m 0 8).toNat = 4 then s.enterPark n
    else s
  | .data _ _ => s

/-- A loopback's next test flit, or the next of a replay, on port p; none once 508 are stored (11 R259, R263, R265). -/
def Port.loopNext (p : Port) (now : Word) : Option (Stored × Port) :=
  match (match p.replayAt with | some i => p.buffer[i]? | none => none) with
  | some f =>
    let i := (p.replayAt.getD 0) + 1
    some (f, { p with replayAt := if i < p.buffer.length then some i else none })
  | none =>
    if 508 ≤ p.buffer.length then none
    else
      let b := FlitBody.data false (loopSlots p.txNext)
      some (⟨p.txNext, b⟩, { p with replayAt := none }.store b now)

/-- A test flit of a loopback with PATTERN 0 is sent: L0 turns the flit back before FEC, L1 turns the lanes' symbols back at the PHY, L2 and
L3 send them out (15 Table 15-3, R329). -/
def State.loopSend (s : State) (n : Nat) : State :=
  let l := s.loopb n
  if (linkMap l.lanes l.lanes 4 4).isNone then s
  else match ((s.port n).onLoop l).loopNext s.gl.time with
    | none => s
    | some (f, p) =>
      let h := bodyHead p f.seq f.body
      if l.depth = 0 then
        let x := flitBytes h.1 h.2
        (s.modPort n fun _ => { p with lastFlit := x, nakSent := if h.1.nak then satInc p.nakSent else p.nakSent }.offLoop).loopFlit n
          ⟨x, [], sliceNat x 120 4 = (crc32c (x.take 120)).toNat⟩
      else
        let q := p.onLine h.1 h.2
        let s := s.modPort n fun _ => q.offLoop
        if l.depth = 1 then s.loopLines n ((List.range 5).map fun k => tget [] q.line k) else s

/-- 136 bytes of raw PRBS31. -/
def prbsRaw (k : BitVec 31) : BitVec 31 × List Byte := prbsBytes k (List.replicate 136 0)

/-- A block of raw PRBS31 comes in on lane k: it is bad when any bit differs from the lane's sequence (15 R329). -/
def State.prbsCheck (s : State) (n k : Nat) (blk : List Pam4) : State :=
  let x := prbsRaw ((s.port n).lane k).rxKey
  (s.modPort n fun p => p.modLane k fun l => { l with rxKey := x.1 }).countLoop n (blk = lineSyms x.2)

/-- Each lane of a loopback with PATTERN 1 sends a block of raw PRBS31; L1 turns it back. -/
def State.prbsSend (s : State) (n : Nat) : State :=
  let l := s.loopb n
  (lanesOf l.lanes).foldl (fun s k =>
    let x := prbsRaw ((s.port n).lane k).txKey
    let s := s.modPort n fun p => (p.modLane k fun l => { l with txKey := x.1 }).drive k x.2
    if l.depth = 1 && (s.loopb n).running then s.prbsCheck n k (lineSyms x.2) else s) s

/-- A flit time at port n. -/
def State.flitSend (s : State) (n : Nat) : State :=
  let p := s.port n
  let l := s.loopb n
  if p.state = .off && l.running then (if l.pattern then s.prbsSend n else s.loopSend n)
  else if p.trains && !s.domainOff (portDomain n) then s.trainSend n
  else if p.state ≠ .active || s.domainOff (portDomain n) then s
  else
    match (match p.replayAt with | some i => p.buffer[i]? | none => none) with
    | some f =>
      let i := (p.replayAt.getD 0) + 1
      (s.modPort n fun p => { p with replayAt := if i < p.buffer.length then some i else none }).sendBody n f.seq f.body false
    | none =>
      let s := s.modPort n fun p => { p with replayAt := none }
      match s.newFlit n with
      | some (b, t) => t.sendBody n (p.txNext) b true
      | none => s.modPort n fun p => { p with rspRun := 0 }.onLine (idleHead p) []

/-- The ack timer of port n expires (11 R264). -/
def State.ackTimer (s : State) (n : Nat) : State :=
  let p := s.port n
  if p.linked && p.buffer ≠ [] && 16 * max 0x5E p.ackTmo.toNat ≤ s.age p.timerAt then
    let s := s.modPort n fun p => { p with ackTmoCnt := satInc p.ackTmoCnt, tmoRun := p.tmoRun + 1 }
    if p.tmoRun = 7 then s.linkDown n .ackTmo
    else s.modPort n fun p =>
      { p with replayAt := some 0, replays := satInc p.replays, timerAt := s.gl.time, nakAck := none }
  else s

/-! ### Registers of a port (11 R277) -/

/-- A write of CUR_CFG. -/
def State.curCfg (s : State) (n : Nat) (v : Word) : State :=
  let p := s.port n
  let mw := if fld v 2 3 = 1 || fld v 2 3 = 2 || fld v 2 3 = 4 then fld v 2 3 else p.maxWidth
  let on := bit v 0
  let s := s.endLoop n 6
  let s := s.modPort n fun p => { p with enable := on, autoRetry := bit v 1, maxWidth := mw, laneDis := fld v 5 5 }
  if p.enable && !on then
    if p.state = .off then s else s.linkDown n .disable
  else if on && p.state = .off && !s.domainOff (portDomain n) && !bit s.ts.portsLost n then
    s.modPort n fun p => { p with state := .detect, offHold := false }
  else if on && !p.enable then s.modPort n fun p => { p with offHold := false }
  else s.reviewMap n

/-- CUR_CMD RETRAIN and REMAP. -/
def State.curPropose (s : State) (n : Nat) (full : Bool) : State := s.propose n full

/-- The peer asserts CURn_WAKE: a level that stands for a while (16 R356). -/
def State.wakeAsserted (s : State) (n : Nat) : State :=
  let s := s.modPort n fun p => { p with wakeIn := some s.gl.time }
  if (s.port n).state = .park then s.leavePark n else s

/-- This end stops driving CURn_WAKE after 100 µs (16 R356). -/
def State.wakeDriveEnd (s : State) (n : Nat) : State :=
  match (s.port n).wakeOut with
  | some t => if 100000 ≤ s.age t then s.modPort n fun p => { p with wakeOut := none } else s
  | none => s

/-- The ZEROISE notice goes out on every ACTIVE port (11 R276). -/
def State.zeroiseNotice (s : State) : State :=
  (List.range 4).foldl (fun s n =>
    if (s.port n).state = .active then
      s.modPort n fun p => let h := bodyHead p p.txNext (.link (linkMsg 5 false 0 0 s.gl.index.toNat 0)); p.onLine h.1 h.2
    else s) s

/-! ### Loopback commands (15 R328, Tables 15-9, 15-10) -/

/-- Why a START or RESPOND is refused: the code of Table 15-10. -/
def State.loopRefusal (s : State) (n : Nat) (v : Word) : Option (BitVec 4) :=
  if (s.port n).state ≠ .off then some 1
  else if s.domainOff (portDomain n) || !s.awake then some 3
  else if n = s.cu.pairPort.toNat && (s.cu.pair = .waiting || s.cu.pair = .paired || s.cu.pair = .moving) then some 2
  else if bit v 2 && bit v 3 then some 7
  else if bit v 2 && bit v 4 && fld v 0 2 = 0 then some 8
  else none

/-- The scramblers of a loopback's lanes start at the seeds of their positions. -/
def Port.loopKeys (p : Port) (lanes : BitVec 5) : Port :=
  (lanesOf lanes).zipIdx.foldl (fun (p : Port) x => p.modLane x.1 fun l => { l with txKey := prbsSeed x.2, rxKey := prbsSeed x.2 }) p

/-- A write of TST_LOOPn_CFG. A start that is refused changes STATE and CODE alone: a loopback that runs goes on. -/
def State.loopCfg (s : State) (n : Nat) (v : Word) : State :=
  let s := if bit v 42 then s.endLoop n 9 else s
  let old := s.loopb n
  let asked := bit v 2 || (bit v 3 && !old.respond)
  match (if asked then s.loopRefusal n v else none) with
  | some c => s.modLoop n fun l => { l with state := 3, code := c }
  | none =>
    let s := s.modLoop n fun l =>
      { l with depth := fld v 0 2, respond := bit v 3, pattern := bit v 4, lanes := fld v 5 5, flits := fld v 10 32 }
    if bit v 2 then
      (s.modPort n fun p =>
        { p.loopKeys (fld v 5 5) with txNext := 0, rxExp := 0, buffer := [], replayAt := none, nakAck := none, nak := false
          }).modLoop n fun l => { l with state := 1, code := 0, ok := 0, bad := 0, running := true, checked := 0 }
    else s

/-- A 1,088-bit block of raw PRBS31 comes in on a lane, or its time passes with nothing coming: a RESPOND port sends it back, a loopback at
L2 or L3 checks it (15 R327, R329). -/
def State.prbsBlock (s : State) (n k : Nat) (blk : List Pam4) : State :=
  let l := s.loopb n
  if (s.port n).state = .off && l.respond then s.modPort n fun p => { p with line := tset [] p.line k blk }
  else if l.running && l.pattern && bit l.lanes k && 2 ≤ l.depth.toNat then s.prbsCheck n k blk else s

/-- A write of CUR_PAIR_CFG: PORT moves the mirror, or ends a loopback on the port it names (12 R290, 15 R328). -/
def State.pairCfg (s : State) (v : Word) : State :=
  let p := fld v 1 2
  let old := s.cu.pairPort
  let s := s.endLoop p.toNat 4
  let s := if s.locked then s else
    { s with cu.pairEn := bit v 0, cu.partner := fld v 3 2, cu.pair := if bit v 0 then .waiting else .off }
  let s := { s with cu.pairPort := p, cu.pairAuto := bit v 5, cu.zpromote := bit v 6 }
  if p ≠ old && s.cu.pair = .paired then { s with cu.pair := .moving, cu.oldPort := old }.finishMove else s

end Sys2Proof.Machine
end

