-- ==== Sys2Proof/Machine/Scrub.lean ====
section
/-! DEFINITION. Scrub passes and what an uncorrectable word of each array becomes (13 R294 to R301). -/
namespace Sys2Proof.Machine

/-- Entry e's content can be restored from the partner (13 R297). -/
def State.restorable (s : State) (e : Nat) : Bool := s.mirrorOn && evHalf s.half e

/-- Context c's content can be restored from the partner. -/
def State.restorableCtx (s : State) (c : Nat) : Bool := s.mirrorOn && ctxHalf s.half c

/-- A request item: sixteen 0xFF bytes of data. -/
def requestItem (kind item : Nat) : MirrorItem := ⟨BitVec.ofNat 8 kind, BitVec.ofNat 32 item, 0, BitVec.allOnes 128⟩

/-- Owe the outcome of an uncorrectable word until its item is restored or lost. -/
def State.owe (s : State) (arr loc : Nat) : State :=
  { s with er.owed := s.er.owed ++ [(BitVec.ofNat 5 arr, BitVec.ofNat 19 loc)] }

/-- An uncorrectable lodging entry. -/
def State.loseEntry (s : State) (e : Nat) : State :=
  if s.restorable e then
    let s := s.owe 1 e
    if s.cu.unrestored.contains (Item.entry e) then s
    else
      ({ s with cu.unrestored := s.cu.unrestored ++ [Item.entry e] }.modSide e fun d => { d with wait := true }).sendGroup
        [requestItem 0 e]
  else (s.faultEntry e).errUncorr 1 e 0

/-- An uncorrectable word w of context c: one request for each word pair. -/
def State.loseCtx (s : State) (c w : Nat) : State :=
  let loc := c + 4096 * w
  if s.restorableCtx c then
    let s := s.owe 4 loc
    if s.cu.unrestored.contains (Item.ctx c) then s
    else
      ({ s with
        cu.unrestored := s.cu.unrestored ++ List.replicate 4 (Item.ctx c),
        lg.waits := tset false s.lg.waits c true }).sendGroup ((List.range 4).map fun i => requestItem 1 (c + 4096 * i))
  else (if (s.ctx c).state = .faulted then s else s.faultCtx c).errUncorr 4 loc 0

/-- An uncorrectable hold word: marked, and p becomes the instant of detection. -/
def State.loseHold (s : State) (e : Nat) : State :=
  let put (h : Hold) : Hold := if h.event = e then { h with mark := true, p := s.now } else h
  ({ s with cf.holds := s.cf.holds.map put }).errUncorr 3 e 4

/-- Remove element i of a list. -/
def dropAt {α : Type} (l : List α) (i : Nat) : List α := l.take i ++ l.drop (i + 1)

/-- An uncorrectable record: queue 0 offer, 1 service, 2 expiry, 3 two-key. -/
def State.loseRecord (s : State) (q i : Nat) : State :=
  let s := match q with
    | 0 => { s with rn.offerQ := dropAt s.rn.offerQ i }
    | 1 => { s with rn.svcQ := dropAt s.rn.svcQ i }
    | 2 => { s with lg.expQ := dropAt s.lg.expQ i }
    | _ => { s with lg.keyQ := dropAt s.lg.keyQ i }
  s.errUncorr 7 (q + 4 * i) 3

/-- Records in a queue. -/
def State.queueLen (s : State) (q : Nat) : Nat :=
  match q with
  | 0 => s.rn.offerQ.length | 1 => s.rn.svcQ.length | 2 => s.lg.expQ.length | _ => s.lg.keyQ.length

/-- An uncorrectable descriptor word (13 R300). It makes any function FROZEN, one that was ABSENT too; function 0 stays IN_SERVICE, as 09 R211
has it from start-up to the next reset and no THAW reaches it (notes/assumptions/41.md). -/
def State.loseDescriptor (s : State) (f : Nat) : State :=
  let s := match s.fm.mig with
    | some m => if m.fn.toNat = f then s.endMigration else s
    | none => s
  let s := s.modFn f fun x =>
    { x with state := if f = 0 then x.state else .frozen, gen := x.gen + 1, priCeil := 0, share := 1, user := 0 }
  s.errUncorr 0xA f 7

/-- An uncorrectable word of the pool maps, of the range of function f: rebuilt from the descriptors (13 R300). -/
def State.losePoolWord (s : State) (f : Nat) : State := s.countRestored.errUncorr 0xA f 2

/-- An uncorrectable word of the staging buffer. -/
def State.loseStaging (s : State) (w : Nat) : State :=
  let s := match s.fm.mig with
    | some m => if m.saving then { s with fm.dirty := true } else s.restoreFail m.fn.toNat imgCrc
    | none =>
      let r := w / 2
      let back := (s.gb.prod - 1 - BitVec.ofNat 16 r).toNat % 16384
      if s.gb.enable && back < s.gbUnread then
        { s.putBytes (16 * r) (leBytes 16 (pack (s.gbHead 3 0 ++ [(16, 1), (2, 2)]))) with
          gb.lostCnt := satInc s.gb.lostCnt, gb.gapDue := some 1 }
      else s
  s.errUncorr 0xC w 3

/-- An uncorrectable visitor: removed, and GONE sent. -/
def State.loseVisitor (s : State) (k : Nat) : State :=
  match s.storedIn k with
  | none => s
  | some v =>
    let c := visCand v.home.toNat v.room.toNat
    let s := match v.holder with
      | some t => ((s.setVisitor (visKey v.home.toNat v.room.toNat) none).modTarget t.toNat fun g =>
          { g with held := g.held.filter fun h => h.cand ≠ c }).settle t.toNat
      | none => s.removeVisitor v
    (s.report v 5).errUncorr 0xF k 3

/-- Bit 18 of a location given to SCRUB_PASS: in array 0x0A it names a pool-map word instead of a descriptor word, in array 0x0E the next slot
that port [1:0] writes into the mirror buffer, which fails its read-back (notes/assumptions/41.md). -/
def locMark : Nat := 2 ^ 18

/-- An uncorrectable word at a location, by array (13 Table 13-1); a location that holds nothing is not read. -/
def State.uncorrectable (s : State) (arr loc : Nat) : State :=
  match arr with
  | 1 => if loc < nEntries then s.loseEntry loc else s
  | 2 => if loc < nEntries then (s.modSide loc fun d => { d with wait := true }).errUncorr 2 loc 2 else s
  | 3 => if (s.holdOf loc).isSome then s.loseHold loc else s
  | 4 => if loc < 32768 then s.loseCtx (loc % 4096) (loc / 4096) else s
  | 5 => s.storeScrub (loc % 16) (loc / 16 % 4096) true
  | 6 => if loc < 4096 then s.countRestored.errUncorr 6 loc 2 else s
  | 7 => if loc / 4 < s.queueLen (loc % 4) then s.loseRecord (loc % 4) (loc / 4) else s
  | 8 =>
    let k := loc % 16
    if loc / 16 < (s.queue k).tasks.length then
      ((s.modQueue k fun q => { q with tasks := dropAt q.tasks (loc / 16), ticket := q.ticket + 1 }).touchIdle k).errUncorr 8 loc 3
    else s
  | 9 => if loc < 256 then s.countRestored.errUncorr 9 loc 2 else s
  | 0xA =>
    if loc ≤ 512 then s.loseDescriptor loc
    else if locMark ≤ loc && loc ≤ locMark + 512 then s.losePoolWord (loc - locMark) else s
  | 0xB => if loc < 512 && s.np.saved then { s with np.saveLost := s.np.saveLost ++ [loc] }.errUncorr 0xB loc 5 else s
  | 0xC => if loc < 32768 then s.loseStaging loc else s
  | 0xD =>
    let n := loc % 4
    if loc / 4 < (s.port n).buffer.length then (s.linkDown n .ackTmo).errUncorr 0xD loc 6 else s
  | 0xE =>
    if loc / 2 < s.cu.mirrorIn.length then { s with er.shadow := true }.errUncorr 0xE loc 3
    else if locMark ≤ loc then s.modPort (loc % 4) fun p => { p with badSlot := true } else s
  | 0xF => s.loseVisitor loc
  | 0x10 => match s.np.wbuf[loc]? with
    | some q => { s with np.wbufLost := s.np.wbufLost ++ [q.attr.id] }.errUncorr 0x10 loc 3
    | none => s
  | _ => s

/-- The scrubber meets entry e, side word and all, on a pass (13 R299). -/
def State.scrubTask (s : State) (e : Nat) : State :=
  let d := s.side e
  if !(d.task && s.dispatchable e) then
    if d.taskSeen then s.modSide e fun d => { d with taskSeen := false } else s
  else if d.taskSeen then
    (s.modDlist (s.bank e) fun l => l.filter (· ≠ e) ++ [e]).modSide e fun d => { d with task := false, taskSeen := false }
  else s.modSide e fun d => { d with taskSeen := true }

/-- A scrub pass at a location of an array: a correctable word is corrected, an uncorrectable one becomes what its array says. A pass visits
each entry once, with its side word: the read of array 1 is that visit, a read of array 2 says what it found in the side word. -/
def State.scrubPass (s : State) (arr loc : Nat) (found : ScrubFind) : State :=
  let s := match found with
    | .clean => s
    | .uncorrectable => s.uncorrectable arr loc
    | .corrected => if arr = 5 then s.storeScrub (loc % 16) (loc / 16 % 4096) false else s.errCorrected arr loc
  if arr = 1 && loc < nEntries then s.scrubTask loc else s

/-- The rebuild of entry e's side word ends (13 R298). -/
def State.sideRebuilt (s : State) (e : Nat) : State :=
  if (s.side e).wait && !s.cu.unrestored.contains (Item.entry e) then
    (s.modSide e fun d => { d with wait := false }).countRestored
  else s

end Sys2Proof.Machine
end

