-- ==== Sys2Proof/Machine/Power.lean ====
section
/-! DEFINITION. Power states: requests, entry, wake sources, exit, and the save SRAM (14). -/
namespace Sys2Proof.Machine

/-! ### Requests (14 R312) -/

/-- A restore or rebuild is in progress (13 Table 13-8 REBUILDING). -/
def State.rebuilding (s : State) : Bool := s.cu.unrestored ≠ [] || s.lt.side.any fun p => p.2.wait

/-- No work is in the block (14 R312). -/
def State.workless (s : State) : Bool :=
  s.allRuns = [] && s.lt.dispatch = [] && (s.pa.queues.all fun p => p.2.tasks = []) &&
  (s.pa.porters.all fun p => p.2.task0.isNone && p.2.task1.isNone) &&
  (s.lt.entries.all fun p => !(p.2.state.ranked || p.2.state.taken || p.2.state = .heldCurfew)) &&
  s.rn.heldPl = [] && s.mi.fences = [] && s.ep.queue = [] && s.ep.spill = [] && s.rn.visitors = [] &&
  (!s.cu.pairEn || (s.mirrorLoad = 0 && s.cu.pair ≠ .moving))

/-- The code of Table 14-3 for a request. -/
def State.pwrCode (s : State) (h : HpAttr) : BitVec 4 :=
  if !privPf h then 1
  else if (s.fm.fns.any fun p => p.2.state.still) || s.fm.busy then 2
  else if !s.workless then 3
  else if s.tg.gate ≠ .opened then 4
  else if !s.ready || !s.st.sealed || s.st.reloading ≠ 0 || s.rebuilding then 5
  else 0

/-- L of R315. -/
def alarmLead (target : BitVec 2) : Nat := if target = 1 then 2048 else 40960

/-- Ask every ACTIVE port to park (14 Table 14-5 step 3). -/
def State.parkAll (s : State) : State := (List.range 4).foldl (fun s n => s.curPark n) s

/-! ### Waking (14 R313, R316, Table 14-13) -/

/-- The domains that a target removes: bit d (14 Table 14-1). -/
def removedDomains (target : BitVec 2) : BitVec 24 := if target = 1 then 0x88FFFF else 0xFFFFFF

/-- The domains that keep their arrays. -/
def State.retainedDomains (s : State) : BitVec 24 :=
  if s.np.target = 1 then 0x08FFFF else if s.np.storeRet then 0x1FFFFF else 0x1F0001

/-- The ports that NAP left in PARK enter RETRAIN (14 Table 14-7 step 5). -/
def State.unparkAll (s : State) : State :=
  (List.range 4).foldl (fun s n => if (s.port n).state = .park then s.modPort n fun p => p.unparked s.gl.time else s) s

/-- Exit begins: domains are powered, and from NAP the ports leave PARK (14 Table 14-7 steps 1, 2 and 5). -/
def State.beginExit (s : State) (w : WakeSrc) : State :=
  let t := { s with
    np.state := .exiting, np.alarmV := false, np.fired := w = .alarm, np.asleep := false, np.wakeDue := none,
    np.pswEn := s.np.pswEn ||| removedDomains s.np.target }
  if s.np.target = 1 then t.unparkAll else t

/-- A wake source acts. -/
def State.wake (s : State) (w : WakeSrc) : State :=
  match s.np.state with
  | .entering => s.latchWake w
  | .nap | .sleep => (s.wakeFlags w).beginExit w
  | _ => s

/-- The night porter takes the wake sources that stand when STATE goes to ENTERING (14 R313, Table 14-4): a level line that is active is latched
and wakes where its enable is set, an engine request whose record is withheld wakes. -/
def State.standingWakes (s : State) : State :=
  let up := s.wf.level &&& (s.wf.inputs ^^^ s.wf.activeLow)
  let s := { s with np.latch := s.np.latch ||| up }
  let s := match (if up &&& s.np.wakeEn = 0 then none else (List.range 1024).find? fun n => bit (up &&& s.np.wakeEn) n) with
    | some n => s.wake (.wired (BitVec.ofNat 10 n))
    | none => s
  match (List.range 16).find? fun n => (s.chan n).held.isSome with
  | some n => s.wake (.engine (BitVec.ofNat 4 n))
  | none => s

/-- A write of PWR_CMD with TARGET 1 or 2. -/
def State.pwrCmd (s : State) (h : HpAttr) (target : BitVec 2) : State :=
  let c := s.pwrCode h
  let s := { s with np.target := target, np.result := c, np.resultV := true }
  if c ≠ 0 then { s with np.refusedC := satInc s.np.refusedC }
  else
    let s := match s.callHead with
      | some (_, _, i) => { s with np.fireAt := i - BitVec.ofNat 48 (alarmLead target), np.alarmV := true }
      | none => { s with np.alarmV := false }
    ({ s with np.state := .entering, np.wakeDue := none, cf.jreq := s.jreqUp }.standingWakes).parkAll

/-! ### Entry (14 R314) -/

/-- Every port is PARK, OFF or down. -/
def State.portsParked (s : State) : Bool :=
  (List.range 4).all fun n => (s.port n).state = .park || !(s.port n).linked

/-- The domains of a removal whose switches are lowered first (14 Table 14-5 step 5); in SLEEP the others follow (step 6). -/
def firstRemoved : BitVec 24 := 0x88FFFF

/-- The switches of domains gone are lowered behind their clamps, those that keep their arrays with NP_RET_EN raised first; a gated cluster
keeps its copy in retention only where the target's state does (14 Table 14-1, 16 R355). -/
def State.lowerSwitches (s : State) (gone : BitVec 24) : State :=
  let keep := s.retainedDomains
  { s with
    np.retEn := (s.np.retEn ||| (gone &&& s.np.pswEn)) &&& keep, np.ret := s.np.ret &&& keep,
    np.pswEn := s.np.pswEn &&& ~~~gone }

/-- Step 3 has ended: loopbacks end, registers are saved, and the first domains are clamped and switched off. -/
def State.portsParkedEntry (s : State) : State :=
  if s.np.state ≠ .entering || !s.portsParked || s.np.saved then s
  else
    let t := (List.range 4).foldl (fun (s : State) n => s.endLoop n 5) s
    { t with np.saved := true }.lowerSwitches firstRemoved

/-- What a port keeps through the loss of its domain: its saved registers (14 Table 14-6). -/
def Port.saved (p : Port) : Port :=
  { enable := p.enable, autoRetry := p.autoRetry, maxWidth := p.maxWidth, laneDis := p.laneDis, ackTmo := p.ackTmo,
    win := p.win, blameThr := p.blameThr, corrThr := p.corrThr, failed := p.failed, replays := p.replays,
    ackTmoCnt := p.ackTmoCnt, nakSent := p.nakSent, corrected := p.corrected, duplicate := p.duplicate, retrains := p.retrains,
    quotaCnt := p.quotaCnt, offHold := p.offHold }

/-- What is lost with the domains removed: guest-book records and the jitter pool; in SLEEP the ports and the store copies that
are not retained (14 R317, 15 R334). -/
def State.loseDomains (s : State) : State :=
  let s := s.gbLose s.gbUnread 3
  let s := { s with
    gb.prod := 0, gb.cons := 0, gb.buffer := [], cf.pool := [], cf.used := 0, cf.jreq := false, cf.jdrop := false,
    st.storeOk := s.st.storeOk &&& s.np.ret.setWidth 16 }
  if s.np.target = 1 then s
  else
    let s := (List.range 4).foldl (fun s n => s.modPort n Port.saved) s
    let z : State := State.reset
    { s with
      ab.ranks := [], ab.waits := [], ab.holds := [], pa.paceValid := false, pa.paceNew := true, pa.pace := z.pa.pace,
      pa.paceMin := z.pa.paceMin, pa.paceMax := z.pa.paceMax }

/-- Entry ends once every removed domain's supply is down (14 Table 14-5 step 7, 16 R355); for SLEEP the second domains are switched off once
the first are down (step 6). -/
def State.entryEnd (s : State) : State :=
  let gone := removedDomains s.np.target
  if s.np.state ≠ .entering || !s.np.saved || s.np.pswGood &&& firstRemoved ≠ 0 then s
  else if s.np.pswEn &&& gone ≠ 0 then s.lowerSwitches gone
  else if s.np.pswGood &&& gone = 0 then
    let s := { s with np.off := s.np.off ||| gone, np.ret := s.np.retEn }.loseDomains
    let s := if s.np.target = 1 then { s with np.state := .nap, np.naps := satInc s.np.naps }
      else { s with np.state := .sleep, np.sleeps := satInc s.np.sleeps }
    match s.np.wakeDue with
    | some w => s.beginExit w
    | none => { s with np.asleep := true }
  else s

/-! ### Exit (14 R318) -/

/-- Reload the copies that were not retained: from copy 0, or from another where copy 0 is not held. -/
def State.reloadCopies (s : State) : State :=
  (List.range 16).foldl (fun s k =>
    if bit s.st.storeOk k || bit s.st.reloading k || bit s.ts.clusters k then s
    else match (if s.copyGood 0 0 then some 0 else s.reloadSource k 0) with
      | some j => s.beginReload k j 0
      | none => s) s

/-- One post for each latched edge line; level lines are sampled afresh (14 Table 14-4). -/
def State.replayLines (s : State) : State :=
  let l := s.np.latch
  (List.range 1024).foldl (fun s n =>
    if bit s.wf.level n then
      (if s.lineActive n && (s.entry (0x40 + n)).state = .idle then
        (if s.busy (0x40 + n) then { s with wf.pend := setBit s.wf.pend n true } else s.wirePost n) else s)
    else if bit l n then
      (if s.busy (0x40 + n) then { s with wf.pend := setBit s.wf.pend n true } else s.wirePost n)
    else s) { s with np.latch := 0 }

/-- Records whose acknowledges were withheld while the block was down or starting are presented. -/
def State.replayRecords (s : State) : State :=
  (List.range 16).foldl (fun s n =>
    match (s.chan n).held with
    | some v => s.engPresent (BitVec.ofNat 4 n) v true
    | none => s) s

/-- Every needed domain has power. -/
def State.exitPowered (s : State) : Bool := (s.np.pswEn &&& ~~~s.np.pswGood) = 0

/-- Steps 3 to 5 of Table 14-7, but for the host port's replay. -/
def State.exitEnd (s : State) : State :=
  let sleep : Bool := s.np.target ≠ 1
  let s := { s with
    np.saved := false, np.off := 0, np.ret := 0, np.retEn := 0, np.gated := [], np.ungateDue := 0,
    np.state := if s.np.trimEn then .trim else .run }
  let s := s.reloadCopies
  let s := (List.range 4).foldl (fun s n =>
    if sleep && (s.port n).enable && !bit s.ts.portsLost n && !(s.port n).offHold then
      s.modPort n fun p => { p with state := .detect }
    else s) s
  let s := (List.range 16).foldl (fun s k => { s with np.idleSince := tset none s.np.idleSince k none }.touchIdle k) s
  (s.replayLines).replayRecords

/-! ### Power switches (16 R355) -/

/-- NP_PSW_GOOD of domain d changes. A cluster that TRIM wants back is switched on once its supply is down. -/
def State.domainPower (s : State) (d : Nat) (good : Bool) : State :=
  let s := { s with np.pswGood := setBit s.np.pswGood d good }
  if good then
    (if d < 16 && bit s.np.pswEn d && s.awake then s.ungated d else s)
  else if bit s.np.pswEn d then s
  else
    let t := s.supplyDown d
    if t.awake && d < 16 && bit t.np.ungateDue d then t.switchCluster d else t.entryEnd

/-- A write of PWR_CFG: clearing TRIM_EN powers every gated cluster again, and a lower TRIM_WAKE those whose adopters have the tasks (14 R311). -/
def State.pwrCfg (s : State) (v : Word) : State :=
  let on := bit v 0
  let s := { s with
    np.trimEn := on, np.storeRet := bit v 1, np.trimRet := bit v 2, np.trimMin := fld v 3 6, np.trimIdle := fld v 9 12,
    np.trimWake := fld v 21 7 }
  let s := if s.np.state = .run && on then { s with np.state := .trim }
    else if s.np.state = .trim && !on then { s with np.state := .run } else s
  if on then s.trimWakes else s.np.gated.foldl (fun s k => s.ungate k.toNat) s

/-! ### The night porter takes what arrives while the block is down (14 Table 14-4) -/

/-- A wired line changes while it is watched by the night porter; before READY it wakes nothing. -/
def State.latchLine (s : State) (n : Nat) (was : Bool) : State :=
  let act := s.lineActive n
  let level := bit s.wf.level n
  let hit := act && (level || !was)
  let s := if hit then { s with np.latch := setBit s.np.latch n true }
    else if level then { s with np.latch := setBit s.np.latch n false } else s
  if hit && s.ready && bit s.np.wakeEn n then s.wake (.wired (BitVec.ofNat 10 n)) else s

/-- An engine record arrives while the block is down or starting: it is not taken. -/
def State.latchRecord (s : State) (ch : BitVec 4) (v : Word) : State :=
  let s := s.engHold ch v
  if s.ready then s.wake (.engine ch) else s

/-- The deadline alarm fires (14 R315). -/
def State.alarmFire (s : State) : State :=
  if s.np.alarmV && reached s.now s.np.fireAt then ({ s with np.alarmV := false }).wake .alarm else s

end Sys2Proof.Machine
end

