-- ==== Sys2Proof/Machine/Startup.lean ====
section
/-! DEFINITION. Reset, start-up, self-test, the seed, ZEROISE, the test access port and the delivery loopback agents (13 R304 to R306,
15 R320 to R331, 16 R353, R354). -/
namespace Sys2Proof.Machine

/-! ### What outlives a reset -/

/-- The state after a reset or erasure of s: the reset values, with the levels on the input pins (an engine record whose acknowledge
is withheld among them), the always-on ZEROISED and ZCAUSE (13 R305), and this model's own queue and counter. -/
def State.erased (s : State) : State :=
  { State.reset with
    pending := s.pending, free := s.free,
    wf := { State.reset.wf with inputs := s.wf.inputs },
    cf := { State.reset.cf with ready := s.cf.ready, fail := s.cf.fail, jack := s.cf.jack },
    mi := { State.reset.mi with channels := tmap {} s.mi.channels fun _ c => { req := c.req, held := c.held } },
    er := { State.reset.er with zeroised := s.er.zeroised, zcause := s.er.zcause },
    ts := { State.reset.ts with tapIr := s.ts.tapIr },
    np := { State.reset.np with zIn := s.np.zIn, pswGood := s.np.pswGood, porst := s.np.porst } }

/-- The hardware phase begins (15 Table 15-1 steps 2 and 3). -/
def State.beginStartup (s : State) : State :=
  { s with ts.phase := .selftest, np.pswEn := 0xFFFFFF, np.off := 0, np.ret := 0, np.retEn := 0 }

/-- PORST_N falls: every port is cleared (16 R353); the hold of a ZEROISE level stays (13 R304). -/
def State.porstFall (s : State) : State :=
  let t := s.erased
  { t with np.porst := false, np.zHold := s.np.zHold, np.zDone := s.np.zHold && s.np.zDone, ts.tapIr := .idcode }

/-- PORST_N falls; during a ZEROISE sequence it takes effect after its step 5. -/
def State.porstFallEvent (s : State) : State :=
  if !s.np.porst then s
  else if s.np.zRun then { s with np.porstDue := true, np.porstBack := false }
  else s.porstFall

/-- PORST_N rises. -/
def State.porstRise (s : State) : State :=
  if s.np.porstDue then { s with np.porstBack := true }
  else if s.np.porst then s
  else
    let s := { s with np.porst := true }
    if s.np.zHold || s.np.zRun then s else s.beginStartup

/-! ### Self-test and spares (15 R322, R323) -/

/-- The states of cluster k's five Porters after self-test. -/
def spareChoice (bad : BitVec 80) (k : Nat) : List PorterState :=
  let ok (p : Nat) : Bool := !bit bad (5 * k + p)
  (List.range 5).map fun p =>
    if !ok p then .failed
    else
      let before := (List.range p).countP ok
      if before < 4 then .active else .spare

/-- Self-test ends. -/
def State.selftestEnd (s : State) (r : SelftestResult) : State :=
  if s.ts.phase ≠ .selftest then s
  else
    let firstBit (n : Nat) (ok : Nat → Bool) : Option Nat := (List.range n).find? ok
    let copy : List (Nat × Nat) := match firstBit 16 (fun k => bit r.copies k) with | some k => [(5, k)] | none => []
    let replay : List (Nat × Nat) := match firstBit 4 (fun n => bit r.replays n) with | some n => [(0xD, n)] | none => []
    let other : List (Nat × Nat) := match r.other with | some p => [(p.1.toNat, p.2.toNat)] | none => []
    let all := sortBy (fun (a b : Nat × Nat) => a.1 < b.1) (copy ++ replay ++ other)
    let first := all.headD (0, 0)
    let s := (List.range 16).foldl (fun s k =>
      let st := spareChoice r.porters k
      (List.range 5).foldl (fun s p => s.modPorter k p fun y =>
        { y with state := if bit r.copies k then .off else st[p]?.getD .failed }) s) s
    { s with
      np.pswGood := 0xFFFFFF, st.storeOk := ~~~r.copies,
      ts.bistDone := true, ts.bistPass := all = [], ts.bistArray := BitVec.ofNat 5 first.1, ts.bistInst := BitVec.ofNat 9 first.2,
      ts.clusters := r.copies, ts.portsLost := r.replays,
      ts.phase := if r.other.isSome || r.copies = BitVec.allOnes 16 then .failed else .rngWait }

/-! ### The seed (15 R325) -/

/-- The key-grade handshake delivers the seed; the bits are discarded outside RNG_WAIT, and where RNG_FAIL rose meanwhile. -/
def State.keyHandshake (s : State) (seed : BitVec 128) : State :=
  if !s.kreqUp then s
  else
    let t := { s with cf.kreq := false, cf.kdrop := false }
    if s.cf.kdrop || s.ts.phase ≠ .rngWait then t
    else { t with lt.seed := seed, lt.scramble := 1, ts.phase := .seeding }

/-- The fixed-scramble option is written; the bits of a handshake in progress are discarded. -/
def State.fixedScramble (s : State) : State :=
  if s.ts.phase = .rngWait then { s.kreqHold true with lt.seed := 0, lt.scramble := 2, ts.phase := .seeding } else s

/-- READY (15 Table 15-1 step 9, R324). -/
def State.startupReady (s : State) : State :=
  if s.ts.phase ≠ .seeding || !s.gl.tbSeen then s
  else
    let s := { s with ts.phase := .ready, wf.enabled := true, er.shadow := false, np.state := .run }
    let s := s.modFn 0 fun x => { x with state := .inService, index := s.gl.index }
    let due := s.lt.srcPend.filterMap fun p => p.2.map fun d => (p.1, d.toNat)
    let s := due.foldl (fun s p => s.internal p.1 p.2) s
    let s := if s.er.zeroised then s.internal srcZeroised s.er.zcause.toNat else s
    let s := (List.range 16).foldl (fun s k => s.touchIdle k) s
    (s.replayLines).replayRecords

/-! ### ZEROISE (13 Table 13-4, 16 R354) -/

/-- Every access outstanding at the host port that has no response is answered DENY, a read with a zero beat for each word it touched (16
R341). -/
def State.denyOutstanding (s : State) : State :=
  let open_ := s.hp.slots.filter fun x => s.hp.responses.all fun r => r.id ≠ x.id
  let s := open_.foldl (fun s x => s.respond ⟨x.id, 0, false, false, 0⟩ .deny (List.replicate x.words 0)) s
  { s with hp.stalled := [], blocked := [], np.wbuf := [], np.wbufLost := [] }

/-- Steps 2 and 3: accesses denied, egress withdrawn, the notice sent. -/
def State.zeroiseBegin (s : State) (cause : BitVec 2) (internal : Bool) : State :=
  let s := s.denyOutstanding
  let s := { s with
    np.zRun := true, np.zInternal := internal, np.zDone := false, er.zcause := cause, ep.queue := [], ep.spill := [] }
  s.zeroiseNotice

/-- ZEROISE rises. -/
def State.zeroiseRise (s : State) : State :=
  if s.np.zIn then s
  else
    let s := { s with np.zIn := true }
    if s.np.zRun then s else s.zeroiseBegin 1 false

/-- Step 5 ends (13 R304, R305, R306). -/
def State.zeroiseEnd (s : State) : State :=
  if !s.np.zRun then s
  else
    let t := s.erased
    let t := { t with
      er.zeroised := true, np.zDone := true, np.zHold := s.np.zIn, np.pswEn := 0, hp.slots := s.hp.slots,
      hp.untaken := s.hp.untaken, hp.responses := s.hp.responses, ep.outstanding := s.ep.outstanding, ts.maker := s.ts.maker }
    if s.np.porstDue then (if s.np.porstBack then t.porstFall.porstRise else t.porstFall)
    else if s.np.zMaker then t.zeroiseBegin 2 true
    else if s.np.zIn || s.np.zInternal || s.ts.maker.isSome || !s.np.porst then t
    else t.beginStartup

/-- ZEROISE falls. -/
def State.zeroiseFall (s : State) : State :=
  if !s.np.zIn then s
  else
    let s := { s with np.zIn := false }
    if s.np.zHold then
      let s := { s with np.zHold := false, np.zDone := false }
      if s.np.porst && s.ts.maker.isNone then s.beginStartup else s
    else s

/-! ### The test access port (13 R306, 15 R331) -/

/-- IDCODE (15 Table 15-5). -/
def idcodeWord : Word :=
  word [(1, 1), (11, Config.manufacturer.toNat), (16, 0x0E27), (4, (fld glbId 16 4).toNat)]

/-- An instruction is loaded whose data register reads v. -/
def State.tapLoad (s : State) (i : TapIr) (v : List Word) : State := { s with ts.tapIr := i, ts.tapDr := v, ts.pins := none }

/-- An instruction that selects the boundary register: what its cells capture from the pins is a free value (IEEE 1149.1). -/
def State.tapBoundary (s : State) (i : TapIr) : State := s.draw.tapLoad i [Config.boundaryCells s.free]

/-- A maker-only instruction raises an internal ZEROISE first, after one that is running; its mode takes effect at the end. -/
def State.makerOnly (s : State) (ir : Byte) : State :=
  let s := { s with ts.tapIr := .maker ir, ts.maker := some ir, ts.pins := none }
  if s.np.zRun then { s with np.zMaker := true } else s.zeroiseBegin 2 true

/-- TST_START and TST_BIST (15 Tables 15-7, 15-8). -/
def Phase.code : Phase → Nat
  | .reset => 0 | .selftest => 1 | .rngWait => 2 | .seeding => 3 | .ready => 4 | .failed => 5

def State.startWord (s : State) : Word := word [(3, s.ts.phase.code)]
def State.bistWord (s : State) : Word :=
  word [(1, b2n s.ts.bistDone), (1, b2n s.ts.bistPass), (5, s.ts.bistArray.toNat), (9, s.ts.bistInst.toNat),
    (16, s.ts.clusters.toNat), (4, s.ts.portsLost.toNat)]

/-- PRT_PACE (05 Table 05-12). -/
def State.paceWord (s : State) : Word :=
  word [(12, s.pa.pace.toNat), (12, s.pa.paceMin.toNat), (12, s.pa.paceMax.toNat), (1, b2n s.pa.paceValid)]

/-- TST_LOOPn_CFG and TST_LOOPn_STATUS. -/
def State.loopCfgWord (s : State) (n : Nat) : Word :=
  let l := s.loopb n
  word [(2, l.depth.toNat), (1, 0), (1, b2n l.respond), (1, b2n l.pattern), (5, l.lanes.toNat), (32, l.flits.toNat)]
def State.loopStatusWord (s : State) (n : Nat) : Word :=
  let l := s.loopb n
  word [(2, l.state.toNat), (4, l.code.toNat), (32, l.ok.toNat), (16, l.bad.toNat)]

/-! ### Delivery loopback agents (15 R330) -/

/-- A write of TST_DLOOPk. Its fields take the values written at once, but for EN: it stays set while the agent holds an event, and is set only
where the target is free. While EN is set a new TARGET is the one served from then on: DESIGN CHOICE (notes/assumptions/61.md). -/
def State.dloopWrite (s : State) (k : Nat) (v : Word) : State :=
  let d := s.dloop k
  let t := (fld v 1 8).toNat
  let other := s.dloop (1 - k)
  let free := !(s.target t).enable && (s.target t).held = [] && !(other.en && other.target.toNat = t)
  let on : Bool := if d.en then bit v 0 || d.claimed.isSome else bit v 0 && free
  let s := s.modDloop k fun d =>
    { d with
      target := fld v 1 8, delay := fld v 9 12, hold := fld v 21 12, en := on, closing := on && d.en && (d.closing || !bit v 0),
      claimed := if d.en then d.claimed else none }
  let s := if d.en && !(on && d.target = fld v 1 8) then s.retarget d.target.toNat else s
  if on && !(d.en && d.target = fld v 1 8) then s.retarget t else s

/-- Agent k claims the candidate that its target offers, once DELAY has passed. -/
def State.dloopClaim (s : State) (k : Nat) : State :=
  let d := s.dloop k
  let t := d.target.toNat
  match (s.target t).offered with
  | some c =>
    if !d.en || d.closing || d.claimed.isSome || s.offerBusy t || s.age (s.target t).offerAt < 16 * d.delay.toNat then s
    else (s.claim t).2.modDloop k fun d => { d with claimed := some c, at_ := s.gl.time }
  | none => s

/-- The target that holds candidate c, else t. -/
def State.holderOf (s : State) (c t : Nat) : Nat :=
  ((List.range 256).find? fun g => (s.target g).held.any fun h => h.cand = c).getD t

/-- Agent k completes the event it holds, once HOLD has passed. -/
def State.dloopComplete (s : State) (k : Nat) : State :=
  let d := s.dloop k
  match d.claimed with
  | some c =>
    let t := s.holderOf c d.target.toNat
    if s.candBusy c || s.age d.at_ < 16 * d.hold.toNat then s
    else
      let s := s.modDloop k fun d => { d with claimed := none }
      let s := if ((s.target t).held.any fun h => h.cand = c) then s.completeCand t c else s.strayComplete t (s.candName c)
      if d.closing then (s.modDloop k fun d => { d with en := false, closing := false }).retarget d.target.toNat else s
  | none => s

end Sys2Proof.Machine
end

