-- ==== Sys2Proof/Machine/Registers.lean ====
section
/-! DEFINITION. What a read of each register returns (17 Table 17-12 and the field tables of every chapter). An offset that holds
no register reads as none. A WO field reads 0 (00 Table 00-5). -/
namespace Sys2Proof.Machine

/-- Offset off lies in an array of n words at base. -/
def inArr (off base n : Nat) : Bool := base ≤ off && off < base + 8 * n && off % 8 = 0

/-- Word k of a wide vector. -/
def wordAt {n : Nat} (v : BitVec n) (k : Nat) : Word := v.extractLsb' (64 * k) 64

/-! ### Codes of enumerated fields -/

def PwrState.code : PwrState → Nat
  | .run => 0 | .trim => 1 | .entering => 2 | .nap => 3 | .sleep => 4 | .exiting => 5
def PairState.code : PairState → Nat
  | .off => 0 | .waiting => 1 | .paired => 2 | .broken => 3 | .promoted => 4 | .moving => 5
def Cause.code : Cause → Nat
  | .none => 0 | .ackTmo => 1 | .noLane => 2 | .quota => 3 | .peerZeroise => 4 | .disable => 5 | .sameIndex => 6 | .revision => 7
def Gate.code : Gate → Nat
  | .opened => 0 | .closing => 1 | .closed => 2 | .fault => 3
def PorterState.code : PorterState → Nat
  | .active => 0 | .spare => 1 | .failed => 2 | .off => 3

/-! ### Global registers (17 R364) -/

/-- GLB_CAP (17 Table 17-4). -/
def glbCap : Word := word [(9, 0x100), (5, 0x10), (3, 5), (3, 4), (3, 5), (10, 0x200), (13, 0x1000), (6, 0x20), (4, 8), (1, 1)]

/-- DISPATCH_IDLE (17 Table 17-7). -/
def State.dispatchIdle (s : State) : Bool := s.gl.hold && s.allRuns = []

def State.glbStatus (s : State) : Word :=
  word [(3, s.ts.phase.code), (1, b2n s.st.sealed), (1, b2n s.dispatchIdle), (1, b2n s.gl.tbSeen), (1, b2n s.gl.tbLate),
    (1, b2n s.fallback), (3, s.np.state.code), (3, s.cu.pair.code), (1, b2n s.er.zeroised)]

/-- Offsets 0x00 to 0xFF: the GLB_ window of R320 (17 R361). -/
def State.readGlb (s : State) (off : Nat) : Option Word :=
  if off = 0x00 then some glbId
  else if off = 0x08 then some glbCap
  else if off = 0x10 then some (word [(2, s.gl.index.toNat), (1, b2n s.gl.aliasV), (2, s.gl.alias_.toNat)])
  else if off = 0x18 then some (word [(1, b2n s.gl.hold)])
  else if off = 0x20 then some s.glbStatus
  else if off = 0x28 then some (s.gl.stepmax.setWidth 64)
  else if off = 0x30 then some 0
  else if off = 0x38 then some (if s.gl.tbSeen then s.now.setWidth 64 else 0)
  else if inArr off 0x40 5 then some (tget 0 s.gl.scratch ((off - 0x40) / 8))
  else none

/-- GLB_EP_LOG, GLB_EP_STATUS and GLB_PORT_COUNT (16 R358). -/
def State.readPorts (s : State) (off : Nat) : Option Word :=
  if off = 0x300 then
    some (word [(10, s.ep.logFn.toNat), (1, b2n s.ep.logKind), (11, s.ep.logIndex.toNat), (1, b2n s.ep.logValid),
      (1, b2n s.ep.logOvf)])
  else if off = 0x308 then
    let waits := s.mirrorOn && s.ep.queue.any fun w => match w.group with | some g => s.groupWaits g | none => false
    some (word [(9, s.ep.queue.length), (6, s.ep.outstanding.length), (1, b2n waits), (7, s.hp.slots.length)])
  else if off = 0x310 then some (word [(16, s.ep.denied.toNat), (16, s.hp.denies.toNat), (16, s.hp.defers.toNat)])
  else none

/-- Lodging, message ingress and the wired front end (02 R45, 08 R210). -/
def State.readIngress (s : State) (off : Nat) : Option Word :=
  if off = 0x400 then some (word [(2, s.lt.scramble.toNat)])
  else if off = 0x408 then
    let r := s.lt.reject
    some (word [(17, r.event.toNat), (3, 0), (4, r.code.toNat), (1, b2n r.valid), (1, b2n r.overflow)])
  else if inArr off 0x500 16 then some (s.chCfg ((off - 0x500) / 8)).bits
  else if off = 0x580 then
    some (word [(16, s.mi.denyCnt.toNat), (16, s.mi.deferCnt.toNat), (16, s.mi.engDiscard.toNat), (16, s.mi.engWait.toNat)])
  else if off = 0x588 then
    let old := match s.mi.fences with | h :: _ => h.fn.toNat | [] => 0
    some (word [(10, s.mi.fences.length), (10, old), (1, b2n (s.mi.fences ≠ []))])
  else if inArr off 0x600 16 then
    some (if s.wf.enabled then wordAt (s.wf.inputs ^^^ s.wf.activeLow) ((off - 0x600) / 8) else 0)
  else if inArr off 0x680 16 then some (wordAt s.wf.pend ((off - 0x680) / 8))
  else none

/-! ### Ranking and the ledger (03 R78, 04 R102) -/

def Group.cfg (g : Group) : Word := word [(2, g.policy.toNat), (8, g.last.toNat), (17, g.orphans.length)]

def State.readRanking (s : State) (off : Nat) : Option Word :=
  if off = 0x1000 then
    some (word [(8, s.rn.offerQ.length), (1, b2n (s.rn.heldOff ≠ [])), (8, s.rn.svcQ.length), (1, b2n (s.rn.heldSvc ≠ []))])
  else if off = 0x1008 then
    some (word [(16, s.rn.offerCnt.toNat), (16, s.rn.svcCnt.toNat), (16, s.rn.displace.toNat), (16, s.rn.strayCnt.toNat)])
  else if off = 0x1010 then some (word [(18, s.rn.heldPl.length)])
  else if inArr off 0x1800 256 then some (s.group ((off - 0x1800) / 8)).cfg
  else if inArr off 0x2000 1024 then
    let k := (off - 0x2000) / 8
    some (wordAt (s.group (k / 4)).mask (k % 4))
  else none

/-- Contexts in a state. -/
def State.ctxsIn (s : State) (st : CtxState) : Nat := s.lg.ctxs.countP fun p => p.2.state = st

def State.readLedger (s : State) (off : Nat) : Option Word :=
  if off = 0x4000 then
    some (word [(9, s.lg.expQ.length), (1, b2n (s.lg.heldExp ≠ [])), (7, s.lg.keyQ.length),
      (1, b2n (s.lg.heldWin ≠ [])), (13, s.ctxsIn .opened), (13, s.ctxsIn .lapsed)])
  else if off = 0x4008 then
    match s.callHead with
    | some (c, _, i) => some (word [(48, i.toNat), (12, c), (1, 1)])
    | none => some 0
  else if inArr off 0x4010 4 then some ((s.keyWindow ((off - 0x4010) / 8)).setWidth 64)
  else if off = 0x4040 then
    some (word [(16, s.lg.keyIgnored.toNat), (16, s.lg.keyDup.toNat), (16, s.lg.keySame.toNat), (16, s.lg.expStale.toNat)])
  else if off = 0x4048 then
    let r := s.lg.reject
    some (word [(12, r.context.toNat), (4, r.code.toNat), (1, b2n r.valid), (1, b2n r.overflow)])
  else if inArr off 0x4400 128 then
    let k := (off - 0x4400) / 8
    some (s.curve (k / 8) (k % 8)).bits
  else none

/-! ### Porters, arbiters, curfew (05 R135, 08 R210) -/

/-- Porters in a state; those of a gated cluster read OFF (14 R311). -/
def State.portersIn (s : State) (st : PorterState) : Nat :=
  (List.range 80).countP fun n => !s.isGated (n / 5) && (s.porter (n / 5) (n % 5)).state = st

def State.porterMap (s : State) (k : Nat) : Word :=
  let st (p : Nat) : Nat := if s.isGated k then 3 else (s.porter k p).state.code
  let a := (s.adopter k).getD k
  word ((List.range 5).map (fun p => (2, st p)) ++
    [(7, (s.queue k).tasks.length), (1, b2n (bit s.st.storeOk k)), (1, b2n (a ≠ k)), (4, if a = k then 0 else a)])

def State.readPorters (s : State) (off : Nat) : Option Word :=
  if off = 0x5000 then some (word [(7, s.pa.stealMin.toNat), (5, s.pa.switchTurn.toNat), (12, s.pa.watchdog.toNat)])
  else if off = 0x5008 then
    some (word [(7, s.portersIn .active), (5, s.portersIn .spare), (1, b2n s.fallback), (8, s.pa.serialQ.length),
      (1, b2n s.pa.serialHeld.isSome), (1, b2n s.pa.selfTrap), (17, s.lt.itinTraps.length), (17, s.lt.stepTraps.length)])
  else if off = 0x5010 then some s.paceWord
  else if off = 0x5018 then
    some (word [(16, s.pa.conflict.toNat), (16, s.pa.serialCnt.toNat), (16, s.pa.stealCnt.toNat), (16, s.pa.trapCnt.toNat)])
  else if inArr off 0x5100 16 then some (s.porterMap ((off - 0x5100) / 8))
  else if off = 0x6000 then some (word [(12, s.ab.holdMax.toNat), (20, s.ab.starveNs.toNat)])
  else if off = 0x6008 then some (word [(16, s.ab.cutoff.toNat), (16, s.ab.starve.toNat)])
  else if off = 0x6010 then
    some (word [(6, s.ab.logArb.toNat), (5, s.ab.logSlot.toNat), (1, b2n s.ab.logKind), (1, b2n s.ab.logValid),
      (1, b2n s.ab.logOvf)])
  else if inArr off 0x6100 40 then some ((s.levels ((off - 0x6100) / 8)).setWidth 64)
  else if inArr off 0x7000 8 then some (s.crfClass ((off - 0x7000) / 8)).bits
  else if off = 0x7040 then
    some (word [(1, b2n s.cf.ready), (1, b2n s.cf.fail), (1, b2n s.cf.noiseLost), (1, b2n s.fallback), (18, s.cf.holds.length),
      (5, s.cf.pool.length)])
  else if off = 0x7048 then
    some (word [(16, s.cf.released.toNat), (16, s.cf.fallRel.toNat), (16, s.cf.drawEmpty.toNat), (16, s.cf.repeats.toNat)])
  else none

/-! ### Functions (09 R236) -/

def State.fnPool (s : State) : Word :=
  let f (base cnt : Fn → Nat) (n : Nat) : Nat := poolFree (s.poolUsed base cnt) n
  word [(9, f (fun x => x.lodgBase.toNat) (fun x => x.lodgN.toNat) 507), (9, f (fun x => x.ledgBase.toNat) (fun x => x.ledgN.toNat) 256),
    (11, f (fun x => x.nqBase.toNat) (fun x => x.nqN.toNat) 1024), (12, f (fun x => x.vecBase.toNat) (fun x => x.vecN.toNat) 2048),
    (8, 112 - s.sharesGiven)]

def State.fnStateWord (s : State) (f : Nat) : Word :=
  word [(3, (s.fn f).state.code), (12, (s.fn f).gen.toNat), (1, b2n (s.settling f)), (1, b2n (s.quiet f)), (8, s.runsOf f)]

def State.readFunctions (s : State) (off : Nat) : Option Word :=
  if off = 0x8000 then some 0
  else if off = 0x8008 then some s.fm.arg0
  else if off = 0x8010 then some s.fm.arg1
  else if off = 0x8018 then some s.fm.arg2
  else if off = 0x8020 then
    some (word [(4, s.fm.code.toNat), (10, s.fm.resFn.toNat), (1, b2n s.fm.busy), (1, b2n s.fm.valid), (1, b2n s.fm.refused),
      (10, s.fm.refusedFn.toNat)])
  else if off = 0x8028 then some s.fnPool
  else if off = 0x8030 then some (word [(16, s.fm.defers.toNat), (16, s.fm.discards.toNat), (16, s.fm.drops.toNat)])
  else if off = 0x8038 then
    some (word [(10, s.fm.migFn.toNat), (2, s.fm.migPhase.toNat), (1, b2n s.fm.segReady), (19, s.fm.segLen.toNat),
      (1, b2n s.fm.last), (1, b2n s.fm.dirty), (4, s.fm.error.toNat)])
  else if inArr off 0x9000 513 then some (s.fnStateWord ((off - 0x9000) / 8))
  else none

/-! ### Peers, pair mode and errors (12 R293, 13 R307) -/

def State.roomWord (s : State) (b : Nat) : Word :=
  let p := s.peer b
  word [(13, p.granted.toNat), (13, p.rooms.length + p.reserved.length), (13, s.rn.visitors.countP fun v => v.1 / 4096 = b), (17, p.waiting.length),
    (1, b2n p.stray), (1, b2n p.valid)]

def State.pairCfgWord (s : State) : Word :=
  word [(1, b2n s.cu.pairEn), (2, s.cu.pairPort.toNat), (2, s.cu.partner.toNat), (1, b2n s.cu.pairAuto), (1, b2n s.cu.zpromote)]

def State.readPeers (s : State) (off : Nat) : Option Word :=
  if off = 0xB000 then some (s.cu.route.setWidth 64)
  else if off = 0xB008 then some (s.cu.roomGrant.setWidth 64)
  else if inArr off 0xB010 4 then some (s.roomWord ((off - 0xB010) / 8))
  else if off = 0xB040 then some s.pairCfgWord
  else if off = 0xB048 then some 0
  else if off = 0xB050 then
    some (word [(3, s.cu.pair.code), (1, if s.cu.pairEn then s.half else 0), (13, min mirrorRoom s.mirrorLoad)])
  else none

/-- The FAULTED entries, ascending. -/
def State.faultedEntries (s : State) : List Nat := (s.lt.entries.filter fun p => p.2.state = .faulted).map (·.1)

def State.readErrors (s : State) (off : Nat) : Option Word :=
  if off = 0xC000 then
    some (word [(5, s.er.array.toNat), (19, s.er.location.toNat), (3, s.er.outcome.toNat), (1, b2n s.er.valid),
      (1, b2n s.er.overflow)])
  else if off = 0xC008 then
    some (word [(17, s.er.stimEvent.toNat), (2, s.er.stimKind.toNat), (1, b2n s.er.stimValid), (1, b2n s.er.stimOvf)])
  else if off = 0xC010 then
    some (word [(16, s.er.corrected.toNat), (16, s.er.uncorr.toNat), (16, s.er.restored.toNat), (16, s.er.stimLost.toNat)])
  else if off = 0xC018 then
    let l := s.faultedEntries
    some (word [(1, b2n s.er.zeroised), (2, s.er.zcause.toNat), (1, b2n s.er.shadow), (18, l.length), (13, s.ctxsIn .faulted),
      (17, l.headD 0), (1, b2n (l ≠ [])), (1, b2n s.rebuilding)])
  else none

/-! ### Tollgate and power (10 R249, 14 R319) -/

def Region.bits (r : Region) : Word :=
  word [(1, b2n r.valid), (1, b2n r.read), (1, b2n r.write), (1, b2n r.needPriv), (1, b2n r.needSec), (1, b2n r.fnAny),
    (10, r.fn.toNat), (1, b2n r.initAny), (8, r.init.toNat), (5, r.sizeLog.toNat), (21, r.base.toNat)]

/-- Accesses admitted through the gate and not yet answered (10 R244). -/
def State.checkedCount (s : State) : Nat := s.hp.slots.countP fun x => x.checked

def State.readToll (s : State) (off : Nat) : Option Word :=
  let t := s.tg
  if off = 0x10000 then some 0
  else if off = 0x10008 then some (word [(2, t.gate.code), (7, s.checkedCount), (7, s.hp.stalled.length)])
  else if off = 0x10010 then some (word [(1, b2n t.imprecise)])
  else if off = 0x10018 then
    some (word [(27, t.log.offset.toNat), (10, t.log.fn.toNat), (8, t.log.init.toNat), (1, b2n t.log.priv), (1, b2n t.log.sec),
      (1, b2n t.log.write), (7, t.log.len.toNat), (4, t.log.code.toNat), (1, b2n t.log.valid), (1, b2n t.log.overflow)])
  else if off = 0x10020 then some (word [(32, t.violations.toNat), (16, t.closes.toNat), (16, t.faults.toNat)])
  else if off = 0x10028 then
    some (word [(7, t.fltRegion.toNat), (3, t.fltCode.toNat), (7, t.fltOther.toNat), (1, b2n t.fltValid)])
  else if inArr off 0x10400 128 then some (s.region ((off - 0x10400) / 8)).bits
  else none

def State.readPower (s : State) (off : Nat) : Option Word :=
  let p := s.np
  if off = 0x20000 then some 0
  else if off = 0x20008 then
    some (word [(3, p.state.code), (2, p.target.toNat), (4, p.result.toNat), (1, b2n p.resultV), (5, p.gated.length)])
  else if off = 0x20010 then
    some (word [(1, b2n p.trimEn), (1, b2n p.storeRet), (1, b2n p.trimRet), (6, p.trimMin.toNat), (12, p.trimIdle.toNat),
      (7, p.trimWake.toNat)])
  else if off = 0x20018 then some (word [(24, p.off.toNat), (24, p.ret.toNat)])
  else if off = 0x20020 then
    some (word [(1, b2n p.wWired), (1, b2n p.wHost), (1, b2n p.wEngine), (1, b2n p.wCourier), (1, b2n p.wAlarm),
      (1, b2n p.wInternal), (1, b2n p.wEntry), (10, p.wLine.toNat), (2, p.wPort.toNat), (4, p.wChannel.toNat)])
  else if off = 0x20028 then
    some (word [(16, p.naps.toNat), (16, p.sleeps.toNat), (16, p.refusedC.toNat), (16, p.early.toNat)])
  else if off = 0x20100 then some (word [(48, p.fireAt.toNat), (1, b2n p.alarmV), (1, b2n p.fired)])
  else if off = 0x20108 then some (word [(10, p.wbuf.length), (10, p.peak.toNat), (1, 0), (1, b2n p.fullSeen)])
  else if inArr off 0x20200 16 then some (wordAt p.wakeEn ((off - 0x20200) / 8))
  else if inArr off 0x20280 16 then some (wordAt p.latch ((off - 0x20280) / 8))
  else none

/-! ### Courier ports (11 R277) -/

/-- STATE of CUR_LANEk: 0 unused, 1 in map, 2 spare, 3 bad. -/
def Port.laneState (p : Port) (k : Nat) : Nat :=
  if bit p.bad k then 3 else if p.width ≠ 0 && bit p.map k then 1 else if p.spare k then 2 else 0

def Port.statusWord (p : Port) : Word :=
  word [(3, p.state.code), (3, p.width.toNat), (5, if p.width = 0 then 0 else p.map.toNat), (5, p.good.toNat),
    (5, p.peerGood.toNat), (2, p.peerIndex.toNat), (1, b2n p.peerValid), (3, p.cause.code), (4, p.tmoRun.toNat),
    (1, b2n p.replayAt.isSome)]

/-- Register r of port n's window. -/
def State.readPort (s : State) (n r : Nat) : Option Word :=
  let p := s.port n
  if r = 0x00 then some (word [(1, b2n p.enable), (1, b2n p.autoRetry), (3, p.maxWidth.toNat), (5, p.laneDis.toNat)])
  else if r = 0x08 then some 0
  else if r = 0x10 then some p.statusWord
  else if r = 0x18 then some (p.ackTmo.setWidth 64)
  else if r = 0x20 then some (word [(8, p.blameThr.toNat), (16, p.win.toNat), (24, p.corrThr.toNat)])
  else if r = 0x28 then
    let oldest := match p.buffer with | f :: _ => f.seq | [] => p.txNext
    some (word [(12, p.txNext.toNat), (12, oldest.toNat), (12, p.rxExp.toNat), (10, p.buffer.length)])
  else if r = 0x30 then
    some (word [(16, p.failed.toNat), (16, p.replays.toNat), (16, p.ackTmoCnt.toNat), (16, p.nakSent.toNat)])
  else if r = 0x38 then
    some (word [(32, p.corrected.toNat), (12, p.duplicate.toNat), (12, p.retrains.toNat), (8, p.quotaCnt.toNat)])
  else if inArr r 0x40 5 then
    let k := (r - 0x40) / 8
    let l := p.lane k
    some (word [(24, l.corr.toNat), (8, l.blame.toNat), (2, p.laneState k), (1, b2n l.locked)])
  else none

/-! ### Test, guest book and the itinerary store (05 R135, 15 R335) -/

def DLoop.bits (d : DLoop) : Word := word [(1, b2n d.en), (8, d.target.toNat), (12, d.delay.toNat), (12, d.hold.toNat)]

def State.readTest (s : State) (off : Nat) : Option Word :=
  if off = 0x40000 then some s.startWord
  else if off = 0x40008 then some s.bistWord
  else if off = 0x40100 then some (word [(1, b2n s.gb.enable), (1, b2n s.gb.logEn), (1, b2n s.gb.stateEn)])
  else if off = 0x40108 then some (word [(16, s.gb.prod.toNat), (1, b2n s.gbSuspended), (16, s.gb.pending.toNat)])
  else if off = 0x40110 then some (s.gb.cons.setWidth 64)
  else if off = 0x40118 then some (word [(32, s.gb.written.toNat), (32, s.gb.lostCnt.toNat)])
  else if inArr off 0x40140 8 then
    let r := s.gbRange ((off - 0x40140) / 8)
    some (word [(17, r.lo.toNat), (17, r.hi.toNat), (1, b2n r.en)])
  else if inArr off 0x40200 8 then
    let n := (off - 0x40200) / 8
    some (if n % 2 = 0 then s.loopCfgWord (n / 2) else s.loopStatusWord (n / 2))
  else if inArr off 0x40300 2 then some (s.dloop ((off - 0x40300) / 8)).bits
  else none

/-- IT_STOREi as copy READ_COPY holds it (05 R124, Table 05-13). What a copy that cannot give the word reads as is not stated: a free value
(notes/assumptions/59.md). -/
def State.storeRead (s : State) (i : Nat) : BitVec 36 :=
  let k := s.st.readCopy.toNat
  if s.copyGood k i then s.copyWord k i else Config.deadCopyWord s.free (4096 * k + i)

def State.readStore (s : State) (off : Nat) : Option Word :=
  if inArr off 0x50000 4096 then some ((s.storeRead ((off - 0x50000) / 8)).setWidth 64)
  else if off = 0x58000 then some (word [(1, 0), (4, s.st.readCopy.toNat)])
  else if off = 0x58008 then
    some (word [(1, b2n s.st.sealed), (1, b2n s.st.sealing), (16, s.st.reloading.toNat), (12, s.st.lostWord.toNat),
      (1, b2n s.st.lost)])
  else if off = 0x58010 then some (word [(48, s.st.ident.toNat)])
  else none

/-! ### Target pages, arrays and function pages (03 R78, 17 R362, 09 R212) -/

/-- The wires of target t may be high: its domain's clamp, reset, ZEROISE and an agent that serves it hold them at 0 (13 Table 13-4, 14 R309,
15 R330, 16 R336). -/
def State.wireFree (s : State) (t : Nat) : Bool := s.portUp && s.powered 19 && !s.agentAt t

/-- TGT_IRQ of target t (03 R61). -/
def State.irq (s : State) (t : Nat) : Bool := s.wireFree t && (s.target t).enable && (s.target t).offered.isSome

/-- TGT_HINT of target t (03 R76). -/
def State.hinted (s : State) (t : Nat) : Bool :=
  s.wireFree t && (s.target t).enable && s.pa.porters.any fun p => match p.2.hint with | some (g, _) => g.toNat = t | none => false

/-- ENG_ACK of channel ch, which its domain's clamp holds at 0 (14 R309). -/
def State.ackWire (s : State) (ch : Nat) : Bool := s.portUp && s.powered 20 && (s.chan ch).ack

/-- NP_ZDONE, which is 0 while PORST_N is low (16 R336, R353). -/
def State.zdoneWire (s : State) : Bool := s.np.porst && s.np.zDone

def State.targetStatus (s : State) (t : Nat) : Word :=
  let g := s.target t
  word [(17, min g.count 0x1FFFF), (17, min g.held.length 0x1FFFF), (17, g.strayEv.toNat), (1, b2n g.stray), (1, b2n g.strayOvf),
    (1, b2n (s.irq t)), (1, b2n (s.hinted t)), (1, b2n g.strayWide)]

/-- Register r of target page t, but TGT_CLAIM, whose read is a claim. -/
def State.readTarget (s : State) (t r : Nat) : Option Word :=
  let g := s.target t
  if r = 0x08 then some 0
  else if r = 0x10 then some (g.threshold.setWidth 64)
  else if r = 0x18 then some (s.targetStatus t)
  else if r = 0x40 then some (word [(1, b2n g.enable), (6, g.holdLimit.toNat), (1, b2n g.away)])
  else if r = 0x48 then some (word [(16, g.offerTmo.toNat), (24, g.svcTmo.toNat)])
  else none

/-- Word w of entry e (02 R43). -/
def State.entryWord (s : State) (e w : Nat) : Word := if w = 0 then (s.entry e).word0 else (s.entry e).word1

/-- Word w of context c (04 R101). -/
def State.ctxWord (s : State) (c w : Nat) : Word := (s.ctx c).word (s.nextOf (s.ctx c)) w

/-- Register r of function f's page (09 Table 09-2). -/
def State.readPage (s : State) (f r : Nat) : Option Word :=
  let x := s.fn f
  if r = 0x00 || r = 0x08 || r = 0x10 then some 0
  else if r = 0x20 then some x.msixCtl
  else if inArr r 0x1000 512 then
    let q := (r - 0x1000) / 8
    if q < x.nqCount then some ((x.nq q).cons.setWidth 64) else none
  else if inArr r 0x2000 512 then
    let q := (r - 0x2000) / 8
    if q < x.nqCount then some (x.nq q).base else none
  else if inArr r 0x3000 512 then
    let q := (r - 0x3000) / 8
    if q < x.nqCount then some (x.nq q).cfg else none
  else if inArr r 0x7F00 32 then
    let k := (r - 0x7F00) / 8
    if 64 * k < x.vecCount then some (x.pending k) else none
  else if inArr r 0x8000 4096 then
    let k := (r - 0x8000) / 8
    let v := x.vec (k / 2)
    if k / 2 < x.vecCount then some (if k % 2 = 0 then v.addr else v.ctl ++ v.data) else none
  else none

/-- The 8-byte word at an aperture offset outside the function pages and the snapshot window. -/
def State.readReg (s : State) (off : Nat) : Option Word :=
  if off < 0x100 then s.readGlb off
  else if off < 0x400 then s.readPorts off
  else if off < 0x1000 then s.readIngress off
  else if off < 0x4000 then s.readRanking off
  else if off < 0x5000 then s.readLedger off
  else if off < 0x8000 then s.readPorters off
  else if off < 0xB000 then s.readFunctions off
  else if off < 0xC000 then s.readPeers off
  else if off < 0x10000 then s.readErrors off
  else if off < 0x20000 then s.readToll off
  else if off < 0x30000 then s.readPower off
  else if off < 0x40000 then s.readPort ((off - 0x30000) / 0x4000) ((off - 0x30000) % 0x4000)
  else if off < 0x50000 then s.readTest off
  else if off < 0x80000 then s.readStore off
  else if off < 0xC0000 then (if off % 8 = 0 then some (s.ctxWord ((off - 0x80000) / 64) (off % 64 / 8)) else none)
  else if off < 0x100000 then none
  else if off < 0x200000 then s.readTarget ((off - 0x100000) / 0x1000) (off % 0x1000)
  else if off < 0x400000 then (if off % 8 = 0 then some (s.entryWord ((off - 0x200000) / 16) (off % 16 / 8)) else none)
  else none

end Sys2Proof.Machine
end

