-- ==== Sys2Proof/Machine/Windows.lean ====
section
/-! DEFINITION. What a write of each register does (17 Table 17-12 and the field tables of every chapter). A reserved encoding leaves
its field as it is (00 R8); an RWL field does not change once sealed (00 R9); a write of RO and W1C bits acts as Table 00-5 gives. -/
namespace Sys2Proof.Machine

/-- Replace word k of a wide vector. -/
def putWord {n : Nat} (m : BitVec n) (k : Nat) (v : Word) : BitVec n :=
  (m &&& ~~~((BitVec.allOnes 64).setWidth n <<< (64 * k))) ||| (v.setWidth n <<< (64 * k))

/-! ### The Tollgate's commands (10 R244 to R246) -/

/-- No access admitted through the gate is unanswered: a CLOSING gate is CLOSED. -/
def State.gateCheck (s : State) : State :=
  if s.tg.gate = .closing && s.checkedCount = 0 then { s with tg.gate := .closed } else s

/-- CLOSE. -/
def State.tollClose (s : State) : State :=
  if s.tg.gate = .opened then ({ s with tg.gate := .closing, tg.closes := satInc s.tg.closes }).gateCheck else s

/-- REOPEN: the check begins on the regions as they stand. -/
def State.tollReopen (s : State) : State :=
  if (s.tg.gate = .closed || s.tg.gate = .fault) && s.tg.check.isNone then { s with tg.check := some s.tg.regions } else s

/-- A region from its register. -/
def regionOf (v : Word) : Region where
  valid := bit v 0
  read := bit v 1
  write := bit v 2
  needPriv := bit v 3
  needSec := bit v 4
  fnAny := bit v 5
  fn := fld v 6 10
  initAny := bit v 16
  init := fld v 17 8
  sizeLog := fld v 25 5
  base := fld v 30 21

/-- A write of TOLL_REGIONn. -/
def State.tollRegion (s : State) (h : HpAttr) (n : Nat) (v : Word) : State :=
  if (s.tg.gate = .closed || s.tg.gate = .fault) && s.tg.check.isNone then
    { s with tg.regions := tset {} s.tg.regions n (regionOf v) }.ok h
  else s.deny h

def State.writeToll (s : State) (h : HpAttr) (off : Nat) (v : Word) : Option State :=
  if off = 0x10000 then
    some ((if fld v 0 2 = 1 then s.tollClose else if fld v 0 2 = 2 then s.tollReopen else s).ok h)
  else if off = 0x10010 then some ({ s with tg.imprecise := bit v 0 }.ok h)
  else if off = 0x10018 then
    some ({ s with
      tg.log.valid := s.tg.log.valid && !bit v 59, tg.log.overflow := s.tg.log.overflow && !bit v 60 }.ok h)
  else if off = 0x10020 then
    some ({ s with tg.violations := fld v 0 32, tg.closes := fld v 32 16, tg.faults := fld v 48 16 }.ok h)
  else if inArr off 0x10400 128 then some (s.tollRegion h ((off - 0x10400) / 8) v)
  else none

/-! ### Global registers (17 R364 to R366) -/

/-- A write of GLB_BLOCK.INDEX: only unsealed and with every port OFF (17 R365); function 0's descriptor shows it (09 Table 09-6). -/
def State.blockIndex (s : State) (i : BitVec 2) : State :=
  if !s.st.sealed && (List.range 4).all (fun n => (s.port n).state = .off) then
    { s with gl.index := i }.modFn 0 fun x => { x with index := i }
  else s

/-- A write of DISPATCH_HOLD (17 R366). -/
def State.dispatchHold (s : State) (b : Bool) : State :=
  if b then { s with gl.hold := true, pa.porters := tmap {} s.pa.porters fun _ p => p.dropNamed } else { s with gl.hold := false }

def State.writeGlb (s : State) (h : HpAttr) (off : Nat) (v : Word) : Option State :=
  if off = 0x10 then some ((s.blockIndex (fld v 0 2)).ok h)
  else if off = 0x18 then some ((s.dispatchHold (bit v 0)).ok h)
  else if off = 0x20 then some ({ s with gl.tbLate := s.gl.tbLate && !bit v 6 }.ok h)
  else if off = 0x28 then some ({ s with gl.stepmax := if fld v 0 12 < 16 then 16 else fld v 0 12 }.ok h)
  else if off = 0x30 then some ((if bit v 0 then s.fixedScramble else s).ok h)
  else if inArr off 0x40 5 then some ({ s with gl.scratch := tset 0 s.gl.scratch ((off - 0x40) / 8) v }.ok h)
  else none

/-- GLB_PORT_COUNT.CLEAR. -/
def State.clearPortCounts (s : State) : State := { s with ep.denied := 0, hp.denies := 0, hp.defers := 0 }

def State.writePorts (s : State) (h : HpAttr) (off : Nat) (v : Word) : Option State :=
  if off = 0x300 then
    some ({ s with ep.logValid := s.ep.logValid && !bit v 22, ep.logOvf := s.ep.logOvf && !bit v 23 }.ok h)
  else if off = 0x310 then some ((if bit v 63 then s.clearPortCounts else s).ok h)
  else none

/-! ### Lodging, ranking and the ledger -/

def State.writeIngress (s : State) (h : HpAttr) (off : Nat) (v : Word) : Option State :=
  if off = 0x408 then
    some ({ s with
      lt.reject.valid := s.lt.reject.valid && !bit v 24, lt.reject.overflow := s.lt.reject.overflow && !bit v 25 }.ok h)
  else if inArr off 0x500 16 then
    some ((if s.locked then s else
      { s with mi.chCfg := tset {} s.mi.chCfg ((off - 0x500) / 8) ⟨bit v 0, bit v 1, fld v 2 3⟩ }).ok h)
  else if off = 0x580 then
    some ({ s with
      mi.denyCnt := fld v 0 16, mi.deferCnt := fld v 16 16, mi.engDiscard := fld v 32 16, mi.engWait := fld v 48 16 }.ok h)
  else none

def State.writeRanking (s : State) (h : HpAttr) (off : Nat) (v : Word) : Option State :=
  if off = 0x1008 then
    some ({ s with
      rn.offerCnt := fld v 0 16, rn.svcCnt := fld v 16 16, rn.displace := fld v 32 16, rn.strayCnt := fld v 48 16 }.ok h)
  else if inArr off 0x1800 256 then some (s.grpCfg h ((off - 0x1800) / 8) v)
  else if inArr off 0x2000 1024 then
    let k := (off - 0x2000) / 8
    some (s.grpMask h (k / 4) (k % 4) v)
  else none

def State.writeLedger (s : State) (h : HpAttr) (off : Nat) (v : Word) : Option State :=
  if inArr off 0x4010 4 then
    some ((if s.locked then s else { s with lg.keywin := tset 0 s.lg.keywin ((off - 0x4010) / 8) (fld v 0 32) }).ok h)
  else if off = 0x4040 then
    some ({ s with
      lg.keyIgnored := fld v 0 16, lg.keyDup := fld v 16 16, lg.keySame := fld v 32 16, lg.expStale := fld v 48 16 }.ok h)
  else if off = 0x4048 then
    some ({ s with
      lg.reject.valid := s.lg.reject.valid && !bit v 16, lg.reject.overflow := s.lg.reject.overflow && !bit v 17 }.ok h)
  else if inArr off 0x4400 128 then
    some ((if s.locked then s else
      { s with lg.curves := tset {} s.lg.curves ((off - 0x4400) / 8) ⟨fld v 0 36, fld v 36 12, bit v 48⟩ }).ok h)
  else none

/-! ### Porters, arbiters and curfew -/

/-- A write of 1 to SELF_TRAP: TRAPPED is cleared on both trap entries (05 R123). -/
def State.selfTrapClear (s : State) (c : Instr) (h : HpAttr) : State :=
  if s.busy srcStepTrap || s.busy srcItinTrap then s.block c
  else { ((s.setTrapped srcStepTrap false).setTrapped srcItinTrap false) with pa.selfTrap := false }.ok h

/-- PRT_PACE.RESTART (05 Table 05-9). -/
def State.paceRestart (s : State) : State := { s with pa.paceNew := true }

/-- A class register's fields after a write: reserved MODE 3, QLOG outside 4 to 20 and JBITS above 8 keep the old value. -/
def CurfewClass.written (c : CurfewClass) (v : Word) : CurfewClass where
  mode := if fld v 0 2 = 3 then c.mode else fld v 0 2
  qlog := if fld v 2 5 < 4 || 20 < fld v 2 5 then c.qlog else fld v 2 5
  minHold := fld v 7 20
  jbits := if 8 < fld v 27 4 then c.jbits else fld v 27 4
  jstep := fld v 31 12

def State.writePorters (s : State) (c : Instr) (h : HpAttr) (off : Nat) (v : Word) : Option State :=
  if off = 0x5000 then
    some ({ s with pa.stealMin := fld v 0 7, pa.switchTurn := fld v 7 5, pa.watchdog := fld v 12 12 }.ok h)
  else if off = 0x5008 then some (if bit v 22 then s.selfTrapClear c h else s.ok h)
  else if off = 0x5010 then some ((if bit v 37 then s.paceRestart else s).ok h)
  else if off = 0x5018 then
    some ({ s with
      pa.conflict := fld v 0 16, pa.serialCnt := fld v 16 16, pa.stealCnt := fld v 32 16, pa.trapCnt := fld v 48 16 }.ok h)
  else if off = 0x6000 then some ((s.arbCfg v).ok h)
  else if off = 0x6008 then some ({ s with ab.cutoff := fld v 0 16, ab.starve := fld v 16 16 }.ok h)
  else if off = 0x6010 then
    some ({ s with ab.logValid := s.ab.logValid && !bit v 12, ab.logOvf := s.ab.logOvf && !bit v 13 }.ok h)
  else if inArr off 0x6100 40 then
    some ({ s with ab.pri := tset 0x555555555555 s.ab.pri ((off - 0x6100) / 8) (fld v 0 48) }.ok h)
  else if inArr off 0x7000 8 then
    let n := (off - 0x7000) / 8
    some ((if s.locked then s else
      { s with cf.classes := tset {} s.cf.classes n ((s.crfClass n).written v) }).ok h)
  else if off = 0x7040 then some ((if bit v 2 then s.noiseClear else s).ok h)
  else if off = 0x7048 then
    some ({ s with
      cf.released := fld v 0 16, cf.fallRel := fld v 16 16, cf.drawEmpty := fld v 32 16, cf.repeats := fld v 48 16 }.ok h)
  else none

/-! ### Functions, peers and errors -/

def State.writeFunctions (s : State) (c : Instr) (h : HpAttr) (off : Nat) (v : Word) : Option State :=
  if off = 0x8000 then
    some (s.fnWrite c h (fld v 0 4).toNat (fld v 4 10).toNat (fld v 14 19).toNat (fld v 33 31 ≠ 0))
  else if off = 0x8008 then some ({ s with fm.arg0 := v &&& 0x1FFFFFFFFF }.ok h)
  else if off = 0x8010 then some ({ s with fm.arg1 := v &&& 0x7FFFFFFFFF }.ok h)
  else if off = 0x8018 then some ({ s with fm.arg2 := v &&& 0xFFFFFFFFFFFFFF }.ok h)
  else if off = 0x8030 then
    some ({ s with fm.defers := fld v 0 16, fm.discards := fld v 16 16, fm.drops := fld v 32 16 }.ok h)
  else none

/-- A write of CUR_ROUTE: entries that wait for rooms may now have a link. -/
def State.routeWrite (s : State) (v : Word) : State :=
  (List.range 4).foldl (fun s b => s.sendWaiting b) { s with cu.route := fld v 0 12 }

def State.writePeers (s : State) (h : HpAttr) (off : Nat) (v : Word) : Option State :=
  if off = 0xB000 then some ((s.routeWrite v).ok h)
  else if off = 0xB008 then some (s.roomGrantWrite h v)
  else if inArr off 0xB010 4 then
    some ((s.modPeer ((off - 0xB010) / 8) fun p => { p with stray := p.stray && !bit v 56 }).ok h)
  else if off = 0xB040 then some ((s.pairCfg v).ok h)
  else if off = 0xB048 then some ((if bit v 0 then s.promote false else s).ok h)
  else none

def State.writeErrors (s : State) (h : HpAttr) (off : Nat) (v : Word) : Option State :=
  if off = 0xC000 then
    some ({ s with er.valid := s.er.valid && !bit v 27, er.overflow := s.er.overflow && !bit v 28 }.ok h)
  else if off = 0xC008 then
    some ({ s with er.stimValid := s.er.stimValid && !bit v 19, er.stimOvf := s.er.stimOvf && !bit v 20 }.ok h)
  else if off = 0xC010 then
    some ({ s with
      er.corrected := fld v 0 16, er.uncorr := fld v 16 16, er.restored := fld v 32 16, er.stimLost := fld v 48 16 }.ok h)
  else if off = 0xC018 then
    some ((if bit v 0 then { s with er.zeroised := false, er.zcause := 0 } else s).ok h)
  else none

/-! ### Power (14 R319) -/

/-- NP_WBUF.PEAK_CLR. -/
def State.peakClear (s : State) : State := { s with np.peak := BitVec.ofNat 10 s.np.wbuf.length }

/-- A write of PWR_CMD: TARGET 0 asks nothing and 3 is reserved. -/
def State.pwrWrite (s : State) (h : HpAttr) (t : BitVec 2) : State := if t = 1 || t = 2 then s.pwrCmd h t else s

def State.writePower (s : State) (h : HpAttr) (off : Nat) (v : Word) : Option State :=
  if off = 0x20000 then some ((s.pwrWrite h (fld v 0 2)).ok h)
  else if off = 0x20010 then some ((s.pwrCfg v).ok h)
  else if off = 0x20020 then
    some ({ s with
      np.wWired := s.np.wWired && !bit v 0, np.wHost := s.np.wHost && !bit v 1, np.wEngine := s.np.wEngine && !bit v 2,
      np.wCourier := s.np.wCourier && !bit v 3, np.wAlarm := s.np.wAlarm && !bit v 4,
      np.wInternal := s.np.wInternal && !bit v 5, np.wEntry := s.np.wEntry && !bit v 6 }.ok h)
  else if off = 0x20028 then
    some ({ s with
      np.naps := fld v 0 16, np.sleeps := fld v 16 16, np.refusedC := fld v 32 16, np.early := fld v 48 16 }.ok h)
  else if off = 0x20108 then
    let s := if bit v 20 then s.peakClear else s
    some ({ s with np.fullSeen := s.np.fullSeen && !bit v 21 }.ok h)
  else if inArr off 0x20200 16 then
    some ({ s with np.wakeEn := putWord s.np.wakeEn ((off - 0x20200) / 8) v }.ok h)
  else none

/-! ### Courier ports (11 R277) -/

/-- A write of CUR_CMD; a reserved CMD does nothing. -/
def State.curCmd (s : State) (n : Nat) (cmd : Nat) : State :=
  match cmd with
  | 1 => s.curPropose n true
  | 2 => s.curPropose n false
  | 3 => s.curPark n
  | 4 => s.leavePark n
  | _ => s

def State.writePort (s : State) (h : HpAttr) (n r : Nat) (v : Word) : Option State :=
  if r = 0x00 then some ((s.curCfg n v).ok h)
  else if r = 0x08 then some ((s.curCmd n (fld v 0 3).toNat).ok h)
  else if r = 0x18 then some ((s.modPort n fun p => { p with ackTmo := fld v 0 16 }).ok h)
  else if r = 0x20 then
    some ((s.modPort n fun p => { p with blameThr := fld v 0 8, win := fld v 8 16, corrThr := fld v 24 24 }).ok h)
  else if r = 0x30 then
    some ((s.modPort n fun p =>
      { p with failed := fld v 0 16, replays := fld v 16 16, ackTmoCnt := fld v 32 16, nakSent := fld v 48 16 }).ok h)
  else if r = 0x38 then
    some ((s.modPort n fun p =>
      { p with corrected := fld v 0 32, duplicate := fld v 32 12, retrains := fld v 44 12, quotaCnt := fld v 56 8 }).ok h)
  else none

/-! ### Guest book, test and the itinerary store (15 R335, 05 R125) -/

/-- A write of GB_CFG: a guest book that is enabled begins with a TIME record. -/
def State.gbCfg (s : State) (v : Word) : State :=
  { s with
    gb.enable := bit v 0, gb.logEn := bit v 1, gb.stateEn := bit v 2,
    gb.lastTime := if bit v 0 && !s.gb.enable then none else s.gb.lastTime }

/-- A write of GB_CONS: at most 16,384 behind PROD, and not beyond it. -/
def State.gbCons (s : State) (h : HpAttr) (v : Word) : State :=
  if 16384 < (s.gb.prod - fld v 0 16).toNat then s.deny h else { s with gb.cons := fld v 0 16 }.ok h

def State.writeTest (s : State) (h : HpAttr) (off : Nat) (v : Word) : Option State :=
  if off = 0x40100 then some ((s.gbCfg v).ok h)
  else if off = 0x40110 then some (s.gbCons h v)
  else if off = 0x40118 then some ({ s with gb.written := fld v 0 32, gb.lostCnt := fld v 32 32 }.ok h)
  else if inArr off 0x40140 8 then
    some ({ s with gb.ranges := tset {} s.gb.ranges ((off - 0x40140) / 8) ⟨fld v 0 17, fld v 17 17, bit v 34⟩ }.ok h)
  else if inArr off 0x40200 8 && (off - 0x40200) / 8 % 2 = 0 then some ((s.loopCfg ((off - 0x40200) / 16) v).ok h)
  else if inArr off 0x40300 2 then some ((s.dloopWrite ((off - 0x40300) / 8) v).ok h)
  else none

def State.writeStore (s : State) (h : HpAttr) (off : Nat) (v : Word) : Option State :=
  if inArr off 0x50000 4096 then some ((s.storeWrite ((off - 0x50000) / 8) (fld v 0 36)).ok h)
  else if off = 0x58000 then
    let s := { s with st.readCopy := fld v 1 4 }
    some ((if bit v 0 then s.sealStart else s).ok h)
  else none

/-! ### Target pages -/

def State.writeTarget (s : State) (h : HpAttr) (t r : Nat) (v : Word) : Option State :=
  if r = 0x08 then some (s.tgtComplete h t v)
  else if r = 0x10 then some (s.tgtThreshold h t v)
  else if r = 0x18 then
    some ((s.modTarget t fun g =>
      { g with stray := g.stray && !bit v 51, strayOvf := g.strayOvf && !bit v 52, strayWide := g.strayWide && !bit v 51 }).ok h)
  else if r = 0x40 then some (s.tgtCfg h t v)
  else if r = 0x48 then some ((s.modTarget t fun g => { g with offerTmo := fld v 0 16, svcTmo := fld v 16 24 }).ok h)
  else none

/-! ### The whole map -/

/-- An 8-byte write outside the function pages and the snapshot window, where something there acts on it. -/
def State.writeActs (s : State) (c : Instr) (h : HpAttr) (off : Nat) (v : Word) : Option State :=
  if off < 0x100 then s.writeGlb h off v
  else if off < 0x400 then s.writePorts h off v
  else if off < 0x1000 then s.writeIngress h off v
  else if off < 0x4000 then s.writeRanking h off v
  else if off < 0x5000 then s.writeLedger h off v
  else if off < 0x8000 then s.writePorters c h off v
  else if off < 0xB000 then s.writeFunctions c h off v
  else if off < 0xC000 then s.writePeers h off v
  else if off < 0x10000 then s.writeErrors h off v
  else if off < 0x20000 then s.writeToll h off v
  else if off < 0x30000 then s.writePower h off v
  else if off < 0x40000 then s.writePort h ((off - 0x30000) / 0x4000) ((off - 0x30000) % 0x4000) v
  else if off < 0x50000 then s.writeTest h off v
  else if off < 0x80000 then s.writeStore h off v
  else if off < 0xC0000 then
    (if off % 8 ≠ 0 then none
     else if off % 64 / 8 = 0 then some (s.ledgWord0 h ((off - 0x80000) / 64) v)
     else some (s.ledgHeld h ((off - 0x80000) / 64) (off % 64 / 8) v))
  else if off < 0x100000 then none
  else if off < 0x200000 then s.writeTarget h ((off - 0x100000) / 0x1000) (off % 0x1000) v
  else if off < 0x400000 then
    (if off % 8 ≠ 0 then none
     else if off % 16 = 0 then some (s.lodgWord0 h ((off - 0x200000) / 16) v)
     else some (s.lodgWord1 h ((off - 0x200000) / 16) v))
  else none

/-- The write: a register none of whose fields takes a write is answered OK, an offset that holds nothing DENY (17 R360). -/
def State.writeReg (s : State) (c : Instr) (h : HpAttr) (off : Nat) (v : Word) : State :=
  match s.writeActs c h off v with
  | some t => t
  | none => if (s.readReg off).isSome || (0x100000 ≤ off && off < 0x200000 && off % 0x1000 = 0) then s.ok h else s.deny h

/-! ### The snapshot window (17 R363, 16 R342) -/

/-- Byte o of the window as a read gives it. -/
def State.snapByte (s : State) (o : Nat) : Byte :=
  match s.fm.mig with
  | none => tget 0 s.gb.buffer o
  | some m =>
    if m.saving then (if s.fm.segReady && o < s.fm.segLen.toNat then tget 0 s.gb.buffer o else 0) else tget 0 s.gb.buffer o

/-- Writes are taken while a function is RESTORING. -/
def State.snapTakes (s : State) : Bool := match s.fm.mig with | some m => !m.saving | none => false

/-- A write of the bytes given, each with its offset. -/
def State.snapWrite (s : State) (h : HpAttr) (bytes : List (Nat × Byte)) : State :=
  if s.snapTakes && bytes.all (fun b => b.1 < stagingBytes) then
    (bytes.foldl (fun s b => s.putBytes b.1 [b.2]) s).ok h
  else s.deny h

end Sys2Proof.Machine
end

