-- ==== Sys2Proof/Machine/Tollgate.lean ====
section
/-! DEFINITION. The Tollgate: how an access is judged, violations, the gate, and how a judged access is carried out at its window
(10, 16 R338 to R343, 17 R359 to R363). -/
namespace Sys2Proof.Machine

/-! ### The command that an admitted write is -/

/-- The fields of a doorbell word (02 Table 02-2). -/
def doorbellOf (v : Word) : Doorbell := ⟨fld v 0 17, fld v 17 3, bit v 20, fld v 21 3, fld v 24 36⟩

/-- A function page's number and the offset in it. -/
def pageOf (off : Nat) : Option (Nat × Nat) :=
  if 0x4000000 ≤ off && off < 0x6010000 then some ((off - 0x4000000) / 0x10000, off % 0x10000) else none

/-- The command that an 8-byte write of v at off is: the row of its word in a function page, else a register write. -/
def writeCmd (h : HpAttr) (off : Nat) (v : Word) : Instr :=
  let reg : Instr := .registerWrite h (BitVec.ofNat 27 off) v
  match pageOf off with
  | none => reg
  | some (f, r) =>
    let fn := BitVec.ofNat 10 f
    if r = 0 then
      match (fld v 60 4).toNat with
      | 1 => .doorbellPost h fn (doorbellOf v)
      | 2 => .doorbellPostKeep h fn (doorbellOf v)
      | 3 => .doorbellCancel h fn (doorbellOf v)
      | 4 => .doorbellMask h fn (doorbellOf v)
      | 5 => .doorbellUnmask h fn (doorbellOf v)
      | _ => reg
    else if r = 8 then .fenceDoorbell h fn v
    else if r = 0x10 then .twoKeyRelease h fn v
    else if r = 0x20 then .msixCtlWrite h fn v
    else if inArr r 0x1000 512 then .nqConsWrite h fn (BitVec.ofNat 9 ((r - 0x1000) / 8)) v
    else if inArr r 0x2000 512 then .nqBaseWrite h fn (BitVec.ofNat 9 ((r - 0x2000) / 8)) v
    else if inArr r 0x3000 512 then .nqCfgWrite h fn (BitVec.ofNat 9 ((r - 0x3000) / 8)) v
    else if inArr r 0x8000 4096 then
      .msixTableWrite h fn (BitVec.ofNat 11 ((r - 0x8000) / 16)) ((r - 0x8000) / 8 % 2 = 1) v
    else reg

/-- A write at a page offset that no row names: a reserved doorbell operation is denied by message ingress (02 R26), the pending bits
take no write, and nothing else is there. -/
def State.pageRest (s : State) (h : HpAttr) (f r : Nat) (v : Word) : State :=
  if r = 0 && (let op := (fld v 60 4).toNat; op = 0 || 5 < op) then s.miDeny h
  else if (s.readPage f r).isSome then s.ok h else s.deny h

/-- What an admitted write of the host does at its window, after the state of its function's page has let it in. Commands of other
kinds are not of the host. -/
def hostBody (c : Instr) (s : State) : State :=
  match c with
  | .registerWrite h off v =>
    match pageOf off.toNat with
    | some (f, r) => s.pageRest h f r v
    | none => s.writeReg c h off.toNat v
  | .doorbellPost h fn d => s.doorbellPost h fn d
  | .doorbellPostKeep h fn d => s.doorbellPostKeep h fn d
  | .doorbellCancel h fn d => s.doorbellCancel h fn d
  | .doorbellMask h fn d => s.doorbellMask h fn d
  | .doorbellUnmask h fn d => s.doorbellUnmask h fn d
  | .fenceDoorbell h fn v => s.fenceDoorbell h fn v
  | .twoKeyRelease h fn v => s.twoKeyRelease h fn v
  | .lodgingWindowWord1Write h ev v => s.lodgWord1 h ev.toNat v
  | .lodgingWindowWord0Write h ev v => s.lodgWord0 h ev.toNat v
  | .ledgerWindowHeldWrite h c w v => s.ledgHeld h c.toNat w.toNat v
  | .ledgerWindowWord0Write h c v => s.ledgWord0 h c.toNat v
  | .tgtClaim h t => s.tgtClaim h t.toNat
  | .tgtComplete h t v => s.tgtComplete h t.toNat v
  | .tgtThresholdWrite h t v => s.tgtThreshold h t.toNat v
  | .tgtCfgWrite h t v => s.tgtCfg h t.toNat v
  | .rnkGrpCfgWrite h g v => s.grpCfg h g.toNat v
  | .rnkGrpMaskWrite h g k v => s.grpMask h g.toNat k.toNat v
  | .arbCfgWrite h v => (s.arbCfg v).ok h
  | .paceRestart h => s.paceRestart.ok h
  | .selfTrapClear h => s.selfTrapClear c h
  | .itStoreWrite h i v => (s.storeWrite i.toNat (fld v 0 36)).ok h
  | .seal h => s.sealStart.ok h
  | .create h fn => s.fnWrite c h 1 fn.toNat 0 false
  | .modify h fn => s.fnWrite c h 2 fn.toNat 0 false
  | .destroy h fn => s.fnWrite c h 3 fn.toNat 0 false
  | .flr h fn => s.fnWrite c h 4 fn.toNat 0 false
  | .freeze h fn => s.fnWrite c h 5 fn.toNat 0 false
  | .thaw h fn => s.fnWrite c h 6 fn.toNat 0 false
  | .save h fn => s.fnWrite c h 7 fn.toNat 0 false
  | .restore h fn => s.fnWrite c h 8 fn.toNat 0 false
  | .next h fn len => s.fnWrite c h 9 fn.toNat len.toNat false
  | .abort h fn => s.fnWrite c h 10 fn.toNat 0 false
  | .snapshotWindowWrite h off v => s.snapWrite h ((List.range 8).map fun i => (off.toNat + i, byteOf v i))
  | .msixCtlWrite h fn v => s.msixCtl h fn.toNat v
  | .msixTableWrite h fn vec high v => s.vectorWrite h fn.toNat vec.toNat high v (BitVec.allOnes 64)
  | .nqConsWrite h fn q v => s.nqCons h fn.toNat q.toNat v
  | .nqBaseWrite h fn q v => s.nqBase h fn.toNat q.toNat v
  | .nqCfgWrite h fn q v => s.nqCfg h fn.toNat q.toNat v
  | .close h => s.tollClose.ok h
  | .reopen h => s.tollReopen.ok h
  | .tollRegionWrite h n v => s.tollRegion h n.toNat v
  | .curCfgWrite h n v => (s.curCfg n.toNat v).ok h
  | .curRetrain h n => (s.curPropose n.toNat true).ok h
  | .curRemap h n => (s.curPropose n.toNat false).ok h
  | .curPark h n => (s.curPark n.toNat).ok h
  | .curUnpark h n => (s.leavePark n.toNat).ok h
  | .curRoomGrantWrite h v => s.roomGrantWrite h v
  | .pairPortWrite h v => (s.pairCfg v).ok h
  | .promote h => (s.promote false).ok h
  | .noiseLostClear h => s.noiseClear.ok h
  | .pwrNap h => (s.pwrCmd h 1).ok h
  | .pwrSleep h => (s.pwrCmd h 2).ok h
  | .pwrCfgWrite h v => (s.pwrCfg v).ok h
  | .peakClr h => s.peakClear.ok h
  | .fixedScramble h => s.fixedScramble.ok h
  | .loopStart h n v => (s.loopCfg n.toNat (setBit v 2 true)).ok h
  | .loopRespond h n v => (s.loopCfg n.toNat (setBit v 3 true)).ok h
  | .loopStop h n => (s.endLoop n.toNat 9).ok h
  | .dloopEnWrite h k v => (s.dloopWrite k.toNat v).ok h
  | .dispatchHoldWrite h b => (s.dispatchHold b).ok h
  | .glbBlockIndexWrite h i => (s.blockIndex i).ok h
  | .portCountClear h => s.clearPortCounts.ok h
  | _ => s

/-! ### Judgement (10 Table 10-1) -/

/-- The outcome of judging an access. -/
inductive Judgement where
  | pass | deny (code : BitVec 4) | stall
deriving DecidableEq, Repr

/-- The request's first offset. -/
def offsetOf (q : HpReq) : Nat := q.addr.toNat

/-- The shapes of R238: within one aligned 64-byte block, and not empty. -/
def shapeOk (q : HpReq) : Bool := q.len ≠ 0 && offsetOf q % 64 + q.len.toNat ≤ 64

/-- Offset o lies in region r (10 R240). -/
def Region.covers (r : Region) (o : Nat) : Bool :=
  r.valid && 64 * r.base.toNat ≤ o && o < 64 * r.base.toNat + 2 ^ r.sizeLog.toNat

/-- The access passes r's test (10 R241). -/
def Region.passes (r : Region) (q : HpReq) : Bool :=
  (if q.write then r.write else r.read) && (q.attr.priv || !r.needPriv) && (q.attr.sec || !r.needSec) &&
    (r.fnAny || q.attr.fn = r.fn) && (r.initAny || q.attr.init = r.init)

/-- Rows 2 to 7 of Table 10-1. -/
def State.judge (s : State) (q : HpReq) : Judgement :=
  let o := offsetOf q
  if 0x6010000 ≤ o then .deny 2
  else if 0x10000 ≤ o && o < 0x20000 then (if keeper q.attr then .pass else .deny 3)
  else if s.tg.gate ≠ .opened then .stall
  else match pageOf o with
    | some (f, _) => if q.attr.fn.toNat = f || privPf q.attr then .pass else .deny 4
    | none =>
      match s.tg.regions.find? fun p => p.2.covers o with
      | some p => if privPf q.attr || p.2.passes q then .pass else .deny 5
      | none => if privPf q.attr then .pass else .deny 6

/-- Zeros for the beats of a read. -/
def readBeats (q : HpReq) : List Word := if q.write then [] else List.replicate (max 1 ((offsetOf q % 8 + q.len.toNat + 7) / 8)) 0

/-- A violation (10 R248): counted, logged, posted, answered by the reporting mode. -/
def State.violate (s : State) (q : HpReq) (code : BitVec 4) : State :=
  let t := s.tg
  let s := { s with tg.violations := satInc t.violations }
  let s := if t.log.valid then { s with tg.log.overflow := true }
    else
      ({ s with
        tg.log := { t.log with
          offset := q.addr, fn := q.attr.fn, init := q.attr.init, priv := q.attr.priv, sec := q.attr.sec, write := q.write,
          len := q.len, code := code, valid := true } }).internal srcTollViolation
        (pack [(4, code.toNat), (10, q.attr.fn.toNat), (8, q.attr.init.toNat)])
  s.respond q.attr (if t.imprecise && code ≠ 1 then .ok else .deny) (readBeats q)

/-! ### Carrying out an admitted access (00 R6, 16 R342) -/

/-- The value that a write of at most 8 bytes carries in its word. -/
def reqWord (q : HpReq) : Word := q.data.headD 0

/-- The bytes that a write marks, each with its offset. -/
def reqBytes (q : HpReq) : List (Nat × Byte) :=
  let first := offsetOf q / 8 * 8
  ((List.range q.len.toNat).map fun i =>
    let o := offsetOf q + i
    (o, byteOf (q.data.getD ((o - first) / 8) 0) ((o - first) % 8)))

/-- Bytes from offset o as the beats of a response: bytes not read are 0. -/
def beatsOf (o : Nat) (bytes : List Byte) : List Word :=
  let all := List.replicate (o % 8) 0 ++ bytes
  (List.range ((all.length + 7) / 8)).map fun k => BitVec.ofNat 64 (leNat ((all.drop (8 * k)).take 8))

/-- Snapshot-window accesses: one word, or a longer burst. -/
def State.snapAccess (s : State) (q : HpReq) : State :=
  let o := offsetOf q - 0x400000
  let sized : Bool := if q.len.toNat ≤ 8 then q.len = 8 && o % 8 = 0 else true
  if !sized || stagingBytes < o + q.len.toNat then s.respond q.attr .deny (readBeats q)
  else if q.write then s.snapWrite q.attr ((reqBytes q).map fun b => (b.1 - 0x400000, b.2))
  else s.respond q.attr .ok (beatsOf o ((List.range q.len.toNat).map fun i => s.snapByte (o + i)))

/-- A 4-byte access to the MSI-X table or pending bits (00 R6): part says which half of the word. -/
def State.msixHalf (s : State) (q : HpReq) (f r : Nat) : State :=
  let part : Nat := r % 8 / 4
  let mask : Word := if part = 0 then 0xFFFFFFFF else 0xFFFFFFFF00000000
  let held : Bool := if r < 0x8000 then 32 * ((r - 0x7F00) / 4) < (s.fn f).vecCount else true
  match s.readPage f (r / 8 * 8) with
  | none => s.respond q.attr .deny (readBeats q)
  | some w =>
    if !held then s.respond q.attr .deny (readBeats q)
    else if !q.write then s.respond q.attr .ok [w &&& mask]
    else if r < 0x8000 then s.ok q.attr
    else s.vectorWrite q.attr f ((r - 0x8000) / 16) ((r - 0x8000) / 8 % 2 = 1) (reqWord q) mask

/-- A 4-byte access that the MSI-X table or its pending bits take. -/
def msixSized (q : HpReq) (r : Nat) : Bool := q.len = 4 && offsetOf q % 4 = 0 && 0x7F00 ≤ r

/-- A single aligned 8-byte access (00 R6). -/
def fullWord (q : HpReq) : Bool := q.len = 8 && offsetOf q % 8 = 0

/-- An admitted access is carried out at its window, after those to the same word that wait (16 R340). -/
def State.carryOut (s : State) (q : HpReq) : State :=
  let o := offsetOf q
  let h := q.attr
  let no (s : State) : State := s.respond h .deny (readBeats q)
  if s.behind (.hostRequest q) then s.block (.hostRequest q)
  else match pageOf o with
  | some (f, r) =>
    let c := writeCmd h o (reqWord q)
    if msixSized q r then fin s (.hostRequest q) (pageAccess s h (BitVec.ofNat 10 f) q.write fun s => s.msixHalf q f r)
    else if !fullWord q then no s
    else if q.write then fin s c (pageAccess s h (BitVec.ofNat 10 f) true (hostBody c))
    else pageAccess s h (BitVec.ofNat 10 f) false fun s =>
      match s.readPage f r with | some v => s.respond h .ok [v] | none => no s
  | none =>
    if 0x400000 ≤ o && o < 0x500000 then s.snapAccess q
    else if !fullWord q then no s
    else if q.write then
      let c := writeCmd h o (reqWord q)
      fin s c (hostBody c s)
    else if 0x100000 ≤ o && o < 0x200000 && o % 0x1000 = 0 then
      let c : Instr := .tgtClaim h (BitVec.ofNat 8 ((o - 0x100000) / 0x1000))
      fin s c (hostBody c s)
    else match s.readReg o with
      | some v => s.respond h .ok [v]
      | none => no s

/-- Judge an access from row 2 on and act on the outcome. -/
def State.judged (s : State) (q : HpReq) : State :=
  match s.judge q with
  | .deny c => finNow s (s.violate q c)
  | .stall => { s with hp.stalled := s.hp.stalled ++ [q] }
  | .pass => (s.takeSlot q.attr (readBeats q).length true).carryOut q

/-- The access lies in what answers before READY (15 R320). -/
def earlyWindow (q : HpReq) : Bool := offsetOf q < 0x100 || offsetOf q / 8 * 8 = 0x40000 || offsetOf q / 8 * 8 = 0x40008

/-- A request that has its slot: ZEROISE denies it, start-up may defer it, else the Tollgate judges it. -/
def State.present (s : State) (q : HpReq) : State :=
  if s.np.zRun || s.np.zHold then s.respond q.attr .deny (readBeats q)
  else if !s.ready && !earlyWindow q then
    s.respond q.attr (if s.ts.phase = .failed then .deny else .defer) (readBeats q)
  else if !shapeOk q then finNow s (s.violate q 1)
  else s.judged q

/-! ### What waited for an access group (05 R116) -/

/-- A command that waited is presented again at its window, behind any that still waits for the same word; the port has already let it in. -/
def State.replayOne (s : State) (c : Instr) : State :=
  if s.behind c then s.block c
  else match c with
  | .hostRequest q => s.carryOut q
  | .engineRecord ch v => fin s c (s.engPresent ch v true)
  | .report n room ev st u => fin s c ((s.recvReport n.toNat room.toNat ev.toNat st.toNat u).getD s)
  | .mirrorEnd n seq count => fin s c ((s.recvMirrorEnd n.toNat seq count).getD s)
  | _ => fin s c (hostBody c s)

/-- Every command that waits is presented again, in order; what cannot take effect yet waits on. -/
def State.replay (s : State) : State :=
  if s.blocked = [] then s else s.blocked.foldl (fun s c => s.replayOne c) { s with blocked := [] }

/-! ### Taking requests (16 R339 to R343) -/

/-- A write that the doorbell wake buffer takes (14 Table 14-4). -/
def buffered (q : HpReq) : Bool :=
  q.write && fullWord q &&
    match pageOf (offsetOf q) with | some (_, r) => r = 0 || r = 8 || r = 0x10 | none => false

/-- The night porter takes a request while the block is down. -/
def State.nightTake (s : State) (q : HpReq) : State :=
  if buffered q && s.np.wbuf.length < 512 then
    let n := s.np.wbuf.length + 1
    { s.takeSlot q.attr (readBeats q).length false with
      np.wbuf := s.np.wbuf ++ [q], np.peak := if s.np.peak.toNat < n then BitVec.ofNat 10 n else s.np.peak }
  else
    { s with hp.untaken := s.hp.untaken ++ [q], np.fullSeen := s.np.fullSeen || buffered q }

/-- The port can take request q at all. -/
def State.canTake (s : State) (q : HpReq) : Bool := s.np.porst && (s.freeSlot q.attr).isSome && !s.hasSlot q.attr

/-- A request is presented. One that finds others untaken waits behind them, unless it is of the keeper path (16 R339); an untaken one of its
identifier has been withdrawn (16 R337, notes/assumptions/60.md). -/
def State.hostPresent (s : State) (q : HpReq) : State :=
  let s := { s with hp.untaken := s.hp.untaken.filter fun p => p.attr.id ≠ q.attr.id }
  if !s.canTake q || (s.hp.untaken ≠ [] && !(keeper q.attr && s.awake)) then
    let t := { s with hp.untaken := s.hp.untaken ++ [q] }
    if s.np.porst && !s.awake then t.wake .host else t
  else if s.awake || s.np.zRun || s.np.zHold then (s.takeSlot q.attr (readBeats q).length false).present q
  else (s.nightTake q).wake .host

/-- Take the requests that stand untaken, in order, as far as the port can. -/
def State.drainPort : Nat → State → State
  | 0, s => s
  | n + 1, s =>
    match s.hp.untaken with
    | [] => s
    | q :: l =>
      if s.canTake q && (s.awake || s.np.zRun || s.np.zHold) then
        State.drainPort n (({ s with hp.untaken := l }.takeSlot q.attr (readBeats q).length false).present q)
      else s

def State.drainUntaken (s : State) : State := State.drainPort s.hp.untaken.length s

/-- The SoC takes a response: the slot is free, a CLOSING gate may close, and a request that waited is taken (16 R341, 10 R244). -/
def State.responseTaken (s : State) (id : BitVec 6) : State :=
  if s.hp.responses.any fun r => r.id = id then
    ({ s with
      hp.responses := s.hp.responses.filter fun r => r.id ≠ id,
      hp.slots := s.hp.slots.filter fun x => x.id ≠ id }).gateCheck.drainUntaken
  else s

/-! ### REOPEN (10 R242, R246, R247) -/

/-- Regions i and j share an offset. -/
def Region.meets (a b : Region) : Bool :=
  64 * a.base.toNat < 64 * b.base.toNat + 2 ^ b.sizeLog.toNat && 64 * b.base.toNat < 64 * a.base.toNat + 2 ^ a.sizeLog.toNat

/-- The lowest code of Table 10-3 that region n of table t fails, and for 5 the lowest region it overlaps. -/
def regionFault (t : Tbl Region) (n : Nat) (r : Region) : Option (Nat × Nat) :=
  let b := 64 * r.base.toNat
  let z := 2 ^ r.sizeLog.toNat
  if r.sizeLog.toNat < 6 || 26 < r.sizeLog.toNat then some (1, 0)
  else if b % z ≠ 0 then some (2, 0)
  else if 0x4000000 < b + z then some (3, 0)
  else if b < 0x20000 && 0x10000 < b + z then some (4, 0)
  else match t.find? fun p => p.1 ≠ n && p.2.valid && r.meets p.2 with
    | some p => some (5, p.1)
    | none => none

/-- The first failing region with its code. -/
def tableFault (t : Tbl Region) : Option (Nat × Nat × Nat) :=
  t.findSome? fun p => if p.2.valid then (regionFault t p.1 p.2).map fun c => (p.1, c.1, c.2) else none

/-- The stalled accesses are judged in order under the new table (10 R247). -/
def State.judgeStalled (s : State) : State :=
  s.hp.stalled.foldl (fun s q => s.judged q) { s with hp.stalled := [] }

/-- The region check ends: the gate opens, or goes to FAULT. -/
def State.reopenGate (s : State) : State :=
  match s.tg.check with
  | none => s
  | some t =>
    let s := { s with tg.check := none }
    match tableFault t with
    | none => { s with tg.gate := .opened, tg.fltValid := false }
    | some (n, c, o) =>
      ({ s with
        tg.gate := .fault, tg.faults := satInc s.tg.faults, tg.fltRegion := BitVec.ofNat 7 n, tg.fltCode := BitVec.ofNat 3 c,
        tg.fltOther := BitVec.ofNat 7 o, tg.fltValid := true }).internal srcTollViolation 8

/-- The region check ends and, where the gate opened, the stalled accesses are judged. -/
def State.reopenEnd (s : State) (c : Instr) : State :=
  if s.tg.check.isNone then s
  else
    let t := fin s c s.reopenGate
    if t.tg.gate = .opened then t.judgeStalled else t

end Sys2Proof.Machine
end

