-- ==== Sys2Proof/Machine/Saved.lean ====
section
/-! DEFINITION. The save SRAM: a register whose saved word was lost takes its reset value at exit (14 R317, Table 14-6), and what exit
from NAP or SLEEP then brings to the host port (14 R318). -/
namespace Sys2Proof.Machine

/-- Registers of the GLB_, TOLL_, lodging and store groups at their reset values. -/
def State.resetFirst (s : State) (off : Nat) : State :=
  if off = 0x10 then { s with gl.index := 0, gl.aliasV := false, gl.alias_ := 0 }
  else if off = 0x18 then { s with gl.hold := false }
  else if off = 0x28 then { s with gl.stepmax := State.reset.gl.stepmax }
  else if inArr off 0x40 5 then { s with gl.scratch := tset 0 s.gl.scratch ((off - 0x40) / 8) 0 }
  else if off = 0x10010 then { s with tg.imprecise := false }
  else if off = 0x10018 then { s with tg.log := {} }
  else if off = 0x10020 then { s with tg.violations := 0, tg.closes := 0, tg.faults := 0 }
  else if off = 0x10028 then { s with tg.fltRegion := 0, tg.fltCode := 0, tg.fltOther := 0, tg.fltValid := false }
  else if inArr off 0x10400 128 then { s with tg.regions := tset {} s.tg.regions ((off - 0x10400) / 8) {} }
  else if off = 0x400 then { s with lt.scramble := 0 }
  else if off = 0x408 then { s with lt.reject := {} }
  else if inArr off 0x500 16 then { s with mi.chCfg := tset {} s.mi.chCfg ((off - 0x500) / 8) {} }
  else if off = 0x580 then { s with mi.denyCnt := 0, mi.deferCnt := 0, mi.engDiscard := 0, mi.engWait := 0 }
  else if inArr off 0x680 16 then { s with wf.pend := putWord s.wf.pend ((off - 0x680) / 8) 0 }
  else if off = 0x58000 then { s with st.readCopy := 0 }
  else if off = 0x58008 then { s with st.sealed := false, st.sealing := false, st.reloading := 0, st.lostWord := 0, st.lost := false }
  else if off = 0x58010 then { s with st.ident := 0 }
  else s

/-- Registers of the Porter, arbiter, ledger, ranking and curfew groups at their reset values. -/
def State.resetSecond (s : State) (off : Nat) : State :=
  if off = 0x5000 then
    { s with
      pa.stealMin := State.reset.pa.stealMin, pa.switchTurn := State.reset.pa.switchTurn, pa.watchdog := State.reset.pa.watchdog }
  else if off = 0x5008 then { s with pa.selfTrap := false }
  else if off = 0x5018 then { s with pa.conflict := 0, pa.serialCnt := 0, pa.stealCnt := 0, pa.trapCnt := 0 }
  else if inArr off 0x5100 16 then
    (List.range 5).foldl (fun s p => s.modPorter ((off - 0x5100) / 8) p fun y => { y with state := .off })
      { s with st.storeOk := setBit s.st.storeOk ((off - 0x5100) / 8) false }
  else if off = 0x6000 then { s with ab.holdMax := State.reset.ab.holdMax, ab.starveNs := State.reset.ab.starveNs }
  else if off = 0x6008 then { s with ab.cutoff := 0, ab.starve := 0 }
  else if off = 0x6010 then
    { s with ab.logArb := 0, ab.logSlot := 0, ab.logKind := false, ab.logValid := false, ab.logOvf := false }
  else if inArr off 0x6100 40 then
    { s with ab.pri := tset 0x555555555555 s.ab.pri ((off - 0x6100) / 8) 0x555555555555 }
  else if inArr off 0x4010 4 then { s with lg.keywin := tset 0 s.lg.keywin ((off - 0x4010) / 8) 0 }
  else if off = 0x4040 then { s with lg.keyIgnored := 0, lg.keyDup := 0, lg.keySame := 0, lg.expStale := 0 }
  else if off = 0x4048 then { s with lg.reject := {} }
  else if off = 0x1008 then { s with rn.offerCnt := 0, rn.svcCnt := 0, rn.displace := 0, rn.strayCnt := 0 }
  else if inArr off 0x7000 8 then { s with cf.classes := tset {} s.cf.classes ((off - 0x7000) / 8) {} }
  else if off = 0x7040 then { s with cf.noiseLost := false }
  else if off = 0x7048 then { s with cf.released := 0, cf.fallRel := 0, cf.drawEmpty := 0, cf.repeats := 0 }
  else s

/-- A port's saved registers at their reset values. -/
def Port.resetReg (p : Port) (r : Nat) : Port :=
  let z : Port := {}
  if r = 0x00 then { p with enable := z.enable, autoRetry := z.autoRetry, maxWidth := z.maxWidth, laneDis := z.laneDis }
  else if r = 0x18 then { p with ackTmo := z.ackTmo }
  else if r = 0x20 then { p with blameThr := z.blameThr, win := z.win, corrThr := z.corrThr }
  else if r = 0x30 then { p with failed := 0, replays := 0, ackTmoCnt := 0, nakSent := 0 }
  else if r = 0x38 then { p with corrected := 0, duplicate := 0, retrains := 0, quotaCnt := 0 }
  else p

/-- Registers of the function, Courier, error and guest book groups at their reset values. -/
def State.resetThird (s : State) (off : Nat) : State :=
  if off = 0x8008 then { s with fm.arg0 := 0 }
  else if off = 0x8010 then { s with fm.arg1 := 0 }
  else if off = 0x8018 then { s with fm.arg2 := 0 }
  else if off = 0x8020 then
    { s with fm.code := 0, fm.resFn := 0, fm.busy := false, fm.valid := false, fm.refused := false, fm.refusedFn := 0 }
  else if off = 0x8030 then { s with fm.defers := 0, fm.discards := 0, fm.drops := 0 }
  else if off = 0x8038 then
    { s with fm.migFn := 0, fm.migPhase := 0, fm.segReady := false, fm.segLen := 0, fm.last := false, fm.dirty := false,
             fm.error := 0 }
  else if 0x30000 ≤ off && off < 0x40000 then
    s.modPort ((off - 0x30000) / 0x4000) fun p => p.resetReg ((off - 0x30000) % 0x4000)
  else if off = 0xB000 then { s with cu.route := 0 }
  else if off = 0xB008 then { s with cu.roomGrant := 0 }
  else if inArr off 0xB010 4 then
    s.modPeer ((off - 0xB010) / 8) fun p => { p with granted := 0, valid := false, stray := false }
  else if off = 0xB040 then
    { s with cu.pairEn := false, cu.pairPort := 0, cu.partner := 0, cu.pairAuto := false, cu.zpromote := false }
  else if off = 0xB050 then { s with cu.pair := .off, cu.backlog := 0 }
  else if off = 0xC000 then { s with er.array := 0, er.location := 0, er.outcome := 0, er.valid := false, er.overflow := false }
  else if off = 0xC008 then { s with er.stimEvent := 0, er.stimKind := 0, er.stimValid := false, er.stimOvf := false }
  else if off = 0xC010 then { s with er.corrected := 0, er.uncorr := 0, er.restored := 0, er.stimLost := 0 }
  else if off = 0xC018 then { s with er.shadow := false }
  else if off = 0x40100 then { s with gb.enable := false, gb.logEn := false, gb.stateEn := false }
  else if off = 0x40118 then { s with gb.written := 0, gb.lostCnt := 0 }
  else if inArr off 0x40140 8 then { s with gb.ranges := tset {} s.gb.ranges ((off - 0x40140) / 8) {} }
  else if inArr off 0x40200 8 then
    let z : Loopback := {}
    s.modLoop ((off - 0x40200) / 16) fun l =>
      { l with depth := z.depth, respond := z.respond, pattern := z.pattern, lanes := z.lanes, flits := z.flits }
  else if inArr off 0x40300 2 then { s with ts.dloops := tset {} s.ts.dloops ((off - 0x40300) / 8) {} }
  else s

/-- The register at an offset is saved for NAP too (14 Table 14-6). -/
def savedForNap (off : Nat) : Bool :=
  off = 0x1008 || inArr off 0x7000 8 || off = 0x7040 || off = 0x7048 || (0x40100 ≤ off && off < 0x40400)

/-- The register held in lost word n of the save SRAM takes its reset value, if the state that was left had it saved. -/
def State.resetSaved (s : State) (n : Nat) : State :=
  let off := (Config.saveWord n).toNat
  if s.np.target = 1 && !savedForNap off then s else ((s.resetFirst off).resetSecond off).resetThird off

/-- Every register whose saved word was lost takes its reset value. -/
def State.loseSaved (s : State) : State :=
  s.np.saveLost.foldl (fun s n => s.resetSaved n) { s with np.saveLost := [] }

/-- The doorbell wake buffer is replayed in arrival order: a write lost to an error is answered DEFER (13 Table 13-1). -/
def State.replayBuffer (s : State) : State :=
  let lost := s.np.wbufLost
  s.np.wbuf.foldl (fun s q => if lost.contains q.attr.id then s.respond q.attr .defer [] else s.present q)
    { s with np.wbuf := [], np.wbufLost := [] }

/-- Exit ends once every needed domain has power (14 Table 14-7 steps 3 to 5). -/
def State.wakeExit (s : State) : State :=
  if s.np.state = .exiting && s.exitPowered then
    let t := fin s .wakeExit s.loseSaved.exitEnd
    if t.awake then t.replayBuffer.drainUntaken else t
  else s

end Sys2Proof.Machine
end

