-- ==== Sys2Proof/Machine/Commit.lean ====
section
/-! DEFINITION. Commits: phase A, what each staged effect does in phase B, what follows a commit, conflicts, the serial token, FWAIT
and spare Porters (05 R113 to R118, 07 R164 to R195). -/
namespace Sys2Proof.Machine

/-! ### Phase A (05 R115, 13 R296) -/

/-- The item is FAULTED: a commit that holds it conflicts, and its re-run is dropped. -/
def State.itemLost (s : State) (it : ReadItem) : Bool :=
  match it.item with | .entry e => (s.entry e).state = .faulted | .ctx c => (s.ctx c).state = .faulted

/-- The item has changed since it was read: its VERSION differs, another run holds its lock, or it has been lost. -/
def State.itemChanged (s : State) (r : RunRef) (it : ReadItem) : Bool :=
  let held (l : Option RunRef) : Bool := match l with | some q => q ≠ r | none => false
  s.itemLost it ||
    match it.item with
    | .entry e => (s.entry e).version ≠ it.version || held (s.side e).lock
    | .ctx c => (s.ctx c).version ≠ it.version || held (s.ctxLock c)

/-- Phase A for run x locks every item, unless one has changed: then the commit conflicts. An item that is being restored or rebuilt
counts as locked, for phase A never waits (05 R116, 13 Corner cases). -/
def State.phaseA (s : State) (r : RunRef) (x : Run) : Option State :=
  if x.reads.any fun it => s.itemWaits it.item || s.itemChanged r it then none
  else some (x.reads.foldl (fun s it => (s.lockItem r it.item).getD s) s)

/-! ### Executing contexts -/

/-- Run context r has work again: its Porter turns to it, at once or at its other context's next step boundary. -/
def State.wakeRun (s : State) (r : RunRef) : State :=
  let p := s.runPorter r
  if p.exec = r.ctx then s
  else match s.run (otherCtx r) with
    | some y => if y.phase = .running then s.modRunPorter r fun p => { p with switched := some r.ctx }
      else s.modRunPorter r fun p => { p with exec := r.ctx }
    | none => s.modRunPorter r fun p => { p with exec := r.ctx }

/-- The kept own-entry effect of run x's segment, as a list. -/
def Run.kept (x : Run) : List Effect := match x.check.own with | some e => [e] | none => []

/-- Begin the segment of run x again; a serialised run that does begin again holds the lock of its own entry (05 R117). -/
def State.runAgain (s : State) (r : RunRef) (x : Run) : State :=
  let s := s.unlock r x
  let s := if x.serial && s.ownGood x then (s.lockItem r (.entry x.event)).getD s else s
  s.rerun r x

/-- Run x waits for the serial token with nothing staged but what a FENCE kept (05 R117, 07 R189). -/
def State.queueSerial (s : State) (r : RunRef) (x : Run) : State :=
  let s := (((s.unlock r x).discard x x.kept).releaseToken r).clearHint r
  let s := { s with pa.serialQ := s.pa.serialQ ++ [r] }
  (s.setRun r (some { x with phase := .serialWait, effects := x.kept, reads := [] })).pickExec r

/-- A commit's conflict: after three of one segment the next run of it is serialised; the re-run is dropped where an item is FAULTED
(05 R117, 13 R296). -/
def State.conflict (s : State) (r : RunRef) (x : Run) : State :=
  let s := { s with pa.conflict := satInc s.pa.conflict }
  let x := { x with conflicts := min 3 (x.conflicts + 1) }
  if x.reads.any s.itemLost then s.dropRun r x
  else if x.conflicts = 3 then s.queueSerial r x else s.runAgain r x

/-- DONE or FENCE: its step counted, phase A runs (06 R156, 07 R195). After DONE the Porter turns to its other context. -/
def State.commitA (s : State) (r : RunRef) (x : Run) (done : Bool) : LqOut :=
  match s.phaseA r x with
  | none => .ended (s.conflict r x)
  | some t =>
    let t := t.setRun r (some { x with phase := if done then .commitDone else .commitFence })
    .ended (if done then t.pickExec r else t)

/-! ### Phase B: the effect on one item -/

/-- The entry with one field written (07 Table 07-3). -/
def Entry.withField (x : Entry) (sel v : BitVec 12) : Entry :=
  match sel.toNat with
  | 0 => x.withFlags v
  | 1 => { x with priority := v }
  | 2 => { x with target := fld v 0 10, tmode := fld v 10 2 }
  | 3 => { x with context := v }
  | 5 => { x with payload := fld x.payload 12 24 ++ v }
  | 6 => { x with payload := fld x.payload 24 12 ++ v ++ fld x.payload 0 12 }
  | 7 => { x with payload := v ++ fld x.payload 0 24 }
  | 8 => { x with entryPc := v }
  | 10 => { x with cls := fld v 4 3 }
  | _ => x

/-- The entry as a committed OFFER writes it (07 R181, R182). -/
def Entry.withOffer (x : Entry) (p : BitVec 12) (t : BitVec 10) (m : BitVec 2) (c : Option Nat) (pay : BitVec 36)
    (keep : Bool) : Entry :=
  { x with
    priority := p, target := t, tmode := m, ctxv := c.isSome || x.ctxv,
    context := match c with | some n => BitVec.ofNat 12 n | none => x.context, payload := if keep then x.payload else pay }

/-- A committed re-offer takes the event back from its holder or its room (03 R54, 12 R285). -/
def State.takeBack (s : State) (e : Nat) (y : Entry) : State :=
  let d := s.side e
  let tgt := match d.holder, d.placed with | some t, _ => t.toNat | none, some t => t.toNat | none, none => 0
  ((s.giveBack e).modSide e fun x => { x with room := none }).reoffer tgt e y true

/-- A committed OFFER. -/
def State.commitOffer (s : State) (e : Nat) (y : Entry) (reqs : Option (List (Source × Nat))) : State :=
  let st := (s.entry e).state
  if st = .offered || st.taken then (s.takeBack e y).enter e [] reqs
  else if st = .idle || st = .posted || st = .parked then
    (s.apply (some .offer) 0 e { y with state := .queued }).enter e [] reqs
  else s

/-- A committed FWD: the room reserved at staging is the entry's, unless the link has gone down since and the room was abandoned; its PLACE
is sent once the entry leaves the intake (12 R282, R286). -/
def State.commitFwd (s : State) (e : Nat) (y : Entry) (b : Nat) (rm : Option (BitVec 12))
    (reqs : Option (List (Source × Nat))) : State :=
  let s := s.modPeer b fun p => { p with reserved := p.reserved.filter fun m => some m ≠ rm }
  let s := s.apply (some .offer) 0 e { y with state := .queued }
  let s := match rm with
    | some m => (s.modPeer b fun p => { p with rooms := tset none p.rooms m.toNat (some ⟨e, false, false, false⟩) }).modSide e
        fun d => { d with room := some (BitVec.ofNat 2 b, m), ucount := 0, acked := 0 }
    | none => s
  s.enter e [] reqs

/-- A priority written by SETPRI, with the candidate re-ranked (07 R177). -/
def State.commitPri (s : State) (e : Nat) (p : BitVec 12) : State :=
  let x := s.entry e
  let s := s.putEntry none 0 e { x with priority := p }
  match (s.side e).placed with
  | some t => if p = x.priority then s else s.rerank t.toNat e x.priority.toNat
  | none => s

/-- A ledger effect on context c, as the table gives on the context as it stands; a lost context takes none. -/
def State.commitCtx (s : State) (c : Nat) (o : Option CtxOut) (pay : Option (BitVec 36))
    (reqs : Option (List (Source × Nat))) : State :=
  match o with | some o => s.applyCtx c o pay reqs | none => s

/-- The state of the follow-on that context x names. -/
def State.followState (s : State) (x : Ctx) : EvState := (s.entry x.follow.toNat).state

/-- The state of an optional named follow-on. -/
def State.namedState (s : State) (f : Option Nat) : EvState := match f with | some e => (s.entry e).state | none => .idle

/-- One staged effect on an entry or context other than the run's own entry. Effects that units outside the banks carry out follow in
`handOn`. -/
def State.commitEffect (s : State) (reqs : Option (List (Source × Nat))) (f : Effect) : State :=
  let lost (e : Nat) : Bool := (s.entry e).state = .faulted
  match f with
  | .flags e v => if lost e then s else s.change (some .setup) 0 e ((s.entry e).withFlags v)
  | .mask e b => if b then s.maskSet e else s.maskClear e reqs
  | .same _ => s
  | .field e sel v => if lost e then s else s.change (some .setup) 0 e ((s.entry e).withField sel v)
  | .post e p keep nm => (s.post { payload := if keep then none else some p, nomerge := nm, reqs := reqs } e).2
  | .cancel e => (s.cancel e).2
  | .coal e p => (s.post { payload := some p, merge := true, orMode := true, reqs := reqs } e).2
  | .park e => let x := s.entry e; if x.state = .posted then s.apply (some .park) 0 e { x with state := .parked } else s
  | .setpri e p => if lost e then s else s.commitPri e p
  | .stx c v => s.commitCtx c ((s.ctx c).stx v) none reqs
  | .join c => let x := s.ctx c; s.commitCtx c (x.join (s.followState x)) none reqs
  | .jadd c n f p keep => s.commitCtx c ((s.ctx c).jadd n f (s.namedState f)) (if keep then none else some p) reqs
  | .dlset c d k =>
    let x := s.ctx c
    let t := s.commitCtx c (x.dlset d k (s.boostEndFrom k.toNat 0)) none reqs
    if x.state = .opened && x.expired then t.markStale c true else t
  | .dlclr c => s.commitCtx c (s.ctx c).dlclr none reqs
  | .keyarm c w f p keep => s.commitCtx c ((s.ctx c).keyarm w f (s.namedState f)) (if keep then none else some p) reqs
  | .offer e p t m c pay keep => s.commitOffer e ((s.entry e).withOffer p t m c pay keep) reqs
  | .fwd e t rm pay keep =>
    let x := s.entry e
    let y := { x with target := t, tmode := 3, payload := if keep then x.payload else pay }
    if x.state = .idle || x.state = .posted || x.state = .parked then s.commitFwd e y (fld t 8 2).toNat rm reqs
    else s.modPeer (fld t 8 2).toNat fun p => { p with reserved := p.reserved.filter fun m => some m ≠ rm }
  | .curf e k => if lost e then s else s.change (some .setup) 0 e { s.entry e with sensitive := true, cls := k }
  | .msix _ => s
  | .nqw _ _ => s

/-- The own entry's part of a DONE: a POST re-lists it, another own-entry effect applies as any effect, none consumes it (07 R169, R173). -/
def State.commitOwn (s : State) (x : Run) (reqs : Option (List (Source × Nat))) (f : Effect) : State :=
  match f with
  | .post e p keep _ =>
    let y := s.entry e
    if y.state = .posted then
      let was := s.dispatchable e
      (s.setEntry e { y with payload := if keep then y.payload else p, run := false, version := y.version + 1 }).dispUpkeep was e
    else s
  | _ => if (s.entry x.event).state = .posted then s.commitEffect reqs f else s.unreserve x.fn f

/-- The consume of the own entry (02 Table 02-9). -/
def State.consume (s : State) (x : Run) : State :=
  let y := s.entry x.event
  if x.ownEffect.isNone && y.state = .posted then s.change (some .consume) 0 x.event { y with state := .idle } else s

/-- Notification records, then messages, each vector once (07 R184, R185, 16 R345). -/
def State.handOn (s : State) (r : RunRef) (x : Run) : State :=
  let s := x.effects.foldl (fun s f =>
    match f with | .nqw q b => s.notify x.fn.toNat x.event q b r | _ => s) s
  let vs := x.effects.filterMap fun f => match f with | .msix v => some v | _ => none
  (vs.foldl (fun (acc : List (BitVec 11)) v => if acc.contains v then acc else acc ++ [v]) []).foldl
    (fun s v => s.message x.fn.toNat v.toNat r) s

/-! ### Records read (05 R121, 03 R71, 04 R96) -/

/-- A timeout record as 48 bits (03 Table 03-4). -/
def TmoRec.bits (r : TmoRec) : BitVec 48 :=
  BitVec.ofNat 48 (pack [(17, r.event.toNat), (1, b2n r.service), (8, r.target.toNat), (1, b2n r.group), (1, b2n r.repost),
    (20, r.age.toNat)])

/-- A trap record as 48 bits (05 Table 05-1). -/
def TrapRec.bits (r : TrapRec) : BitVec 48 :=
  BitVec.ofNat 48 (pack [(17, r.event.toNat), (4, r.cause.toNat), (12, r.pc.toNat), (12, r.steps.toNat), (2, r.conflicts.toNat),
    (1, b2n r.serial)])

/-- The head record of source entry src's queue or list with the item it names (06 R143). -/
def State.headRecord (s : State) (src : Nat) : Option (BitVec 48 × Item) :=
  if src = srcOfferTmo then s.rn.offerQ.head?.map fun r => (r.bits, .entry r.event.toNat)
  else if src = srcServiceTmo then s.rn.svcQ.head?.map fun r => (r.bits, .entry r.event.toNat)
  else if src = srcExpiry then s.lg.expQ.head?.map fun r => (r.bits, .ctx r.context.toNat)
  else if src = srcTwokey then s.lg.keyQ.head?.map fun r => (r.bits, .ctx r.context.toNat)
  else if src = srcItinTrap then s.lt.itinTraps.head?.map fun r => (r.bits, .entry r.event.toNat)
  else if src = srcStepTrap then s.lt.stepTraps.head?.map fun r => (r.bits, .entry r.event.toNat)
  else none

/-- Remove the head record of source src. -/
def State.dropHead (s : State) (src : Nat) : State :=
  if src = srcOfferTmo then { s with rn.offerQ := s.rn.offerQ.drop 1 }
  else if src = srcServiceTmo then { s with rn.svcQ := s.rn.svcQ.drop 1 }
  else if src = srcExpiry then { s with lg.expQ := s.lg.expQ.drop 1 }
  else if src = srcTwokey then { s with lg.keyQ := s.lg.keyQ.drop 1 }
  else match s.headRecord src with
    | some (_, .entry e) => s.setTrapped e false
    | _ => s

/-- The record still heads its queue; STALE may have been set since (04 R96). -/
def State.headsQueue (s : State) (src : Nat) (v : BitVec 48) : Bool :=
  match s.headRecord src with
  | some (u, _) => u = v || ((src = srcExpiry || src = srcTwokey) && setBit u 36 false = setBit v 36 false)
  | none => false

/-- Remove the records that run x has latched: the sources they leave, in their order. -/
def State.dropLatched (s : State) (x : Run) : List Nat × State :=
  x.latched.foldl (fun acc p =>
    match p.2 with
    | some v => if acc.2.headsQueue p.1 v then (acc.1 ++ [p.1], acc.2.dropHead p.1) else acc
    | none => acc) ([], s)

/-- A source whose queue still holds records is posted again with the detail of its latest occurrence, d where none waits (03 R71). -/
def State.postAgain (s : State) (src d : Nat) : State :=
  if (s.headRecord src).isNone then s
  else s.internal src (match tget none s.lt.srcPend src with | some v => v.toNat | none => d)

/-! ### The runs of a failed Porter (05 R113) -/

/-- The run of context a goes to the free context b with its locks, its place for the token and its writes. -/
def State.moveRun (s : State) (a b : RunRef) (x : Run) : State :=
  let sub (q : Option RunRef) : Option RunRef := if q = some a then some b else q
  let s := x.reads.foldl (fun s it =>
    match it.item with
    | .entry e => s.modSide e fun d => { d with lock := sub d.lock }
    | .ctx c => s.setCtxLock c (sub (s.ctxLock c))) s
  let mv (w : EgWrite) : EgWrite := { w with run := sub w.run }
  let s := { s with
    pa.serialHeld := sub s.pa.serialHeld, pa.serialQ := s.pa.serialQ.map fun q => if q = a then b else q,
    ep.queue := s.ep.queue.map mv, ep.spill := s.ep.spill.map mv, ab.waits := s.ab.waits.filter fun w => w.run ≠ some a }
  (s.setRun a none).setRun b (some x)

/-- The free context of a working Porter of cluster k that takes over a run of context c: the spare's own, else the first. -/
def State.refuge (s : State) (k : Nat) (spare : Option Nat) (c : BitVec 1) : Option RunRef :=
  match spare with
  | some q => some ⟨BitVec.ofNat 4 k, BitVec.ofNat 3 q, c⟩
  | none =>
    ((List.range 10).map fun i => (⟨BitVec.ofNat 4 k, BitVec.ofNat 3 (i / 2), BitVec.ofNat 1 (i % 2)⟩ : RunRef)).find? fun r =>
      (s.runPorter r).state = .active && (s.run r).isNone && ((s.runPorter r).task r.ctx).isNone

/-- Run x of context r, whose Porter has failed, waits for a free context: its locks, its token and its staged effects are given up; the
cluster keeps its checkpoint (05 R113). -/
def State.strand (s : State) (r : RunRef) (x : Run) : State :=
  let s := ((s.unlock r x).discard x x.kept).releaseToken r
  let s := s.setRun r (some { x with phase := .running, effects := x.kept, reads := [] })
  if s.pa.stranded.contains r then s else { s with pa.stranded := s.pa.stranded ++ [r] }

/-- Stranded run r takes a free context of its cluster, where there is one, and begins its segment again, or asks for the token that its
segment needs. A run that has committed nothing is dropped where its cluster has no active Porter: another cluster begins it again
from its start (05 R105, R113, R117). -/
def State.rehome (s : State) (r : RunRef) : State :=
  let gone (s : State) : State := { s with pa.stranded := s.pa.stranded.filter (· ≠ r) }
  match s.run r with
  | none => gone s
  | some x => match s.refuge r.cluster.toNat none r.ctx with
    | some q =>
      let t := (gone s).moveRun r q x
      if x.serial || x.conflicts = 3 then t.queueSerial q x else (t.runAgain q x).wakeRun q
    | none => if s.activeIn r.cluster.toNat = 0 && x.check.atStart then (gone s).dropRun r x else s

/-- Every stranded run looks for a context, the longest stranded first. -/
def State.rehomeAll (s : State) : State := s.pa.stranded.foldl (fun s r => s.rehome r) s

/-- Past phase A of a commit: nothing of the run is left to execute in it. -/
def RunPhase.committing : RunPhase → Bool
  | .commitDone | .commitFence | .egressDone | .egressFence => true
  | _ => false

/-- A run of a failed Porter: past phase A, or waiting for the token, it keeps its phase; else it begins its segment again on the context
that takes it over, or waits for one. -/
def State.rescue (s : State) (spare : Option Nat) (r : RunRef) : State :=
  match s.run r with
  | none => s
  | some x => match s.refuge r.cluster.toNat spare r.ctx with
    | some q =>
      let t := s.moveRun r q x
      (if x.phase.committing || x.phase = .serialWait then t else t.runAgain q x).wakeRun q
    | none => if x.phase.committing then s else s.strand r x

/-! ### The watchdog (05 R113) -/

/-- What the watchdog sees of Porter p of cluster k where its run makes its handshakes now; waits are not timed. -/
def State.progress (s : State) (k p : Nat) (now : Word) : Option Watch :=
  let r : RunRef := ⟨BitVec.ofNat 4 k, BitVec.ofNat 3 p, (s.porter k p).exec⟩
  match s.run r with
  | some x =>
    if x.phase = .running && s.clusterRuns k && !s.waitsGrant r then some ⟨x.order, x.steps, x.conflicts, x.pc, now⟩ else none
  | none => none

/-- The watchdog's view at a strobe that publishes now: a run that has come no further keeps the instant since which it has not. -/
def State.watched (s : State) (now : Word) : Tbl (Option Watch) :=
  s.allRuns.foldl (fun t q =>
    let k := q.1.cluster.toNat
    let p := q.1.porter.toNat
    let old := tget none s.pa.watch (5 * k + p)
    tset none t (5 * k + p) (match s.progress k p now with
      | some w => match old with
        | some v => if w = { v with since := now } then some v else some w
        | none => some w
      | none => none)) []

/-- A handshake of Porter p has taken longer than WATCHDOG x 16 ns, 0 acting as 1: its run has come no further for that time. Of a Porter
that executes no run the block holds no instant (DESIGN CHOICE, notes/assumptions/57.md). -/
def State.watchdogDue (s : State) (k p : Nat) : Bool :=
  match s.run ⟨BitVec.ofNat 4 k, BitVec.ofNat 3 p, (s.porter k p).exec⟩ with
  | none => true
  | some _ => match s.progress k p s.gl.time, tget none s.pa.watch (5 * k + p) with
    | some w, some v => w = { v with since := s.gl.time } && 16 * max 1 s.pa.watchdog.toNat < s.age v.since
    | _, _ => false

/-! ### The end of a commit -/

/-- DONE is over: the context is free, and an entry that STEAL named is its next task (07 R191). -/
def State.finishDone (s : State) (r : RunRef) (x : Run) : State :=
  let s := s.endRun r
  match x.steal with
  | some e => if s.gl.hold then s else s.modRunPorter r fun p => p.nameTask r.ctx e
  | none => s

/-- What a FENCE leaves of run x: the commit point and a new segment, its own entry y read anew (05 R118, 06 R140, 07 R169). -/
def Run.fenced (x : Run) (y : Entry) (stepmax : Nat) : Run :=
  let own := x.ownEffect
  let c : Checkpoint :=
    { atStart := false, pc := x.pc + 1, regs := x.regs, z := x.z, c := x.c, n := x.n, f := x.f, rndv := x.rndv, stack := x.stack,
      budget := x.budget, own := own }
  { x with
    phase := .running, pc := x.pc + 1, effects := (match own with | some e => [e] | none => []), reads := [ownItem x.event y own],
    conflicts := 0, serial := false, rerun := false, latched := [], steps := 0, budget := min x.budget stepmax, stlPay := [],
    steal := none, ownPay := y.payload, check := c }

/-- FENCE is over: the run goes on, its token released; on a failed Porter it goes on at its new commit point elsewhere (05 R113). -/
def State.finishFence (s : State) (r : RunRef) (x : Run) : State :=
  let s := (s.releaseToken r).clearHint r
  if x.pc = 0xFFF then
    s.trapRun r { x with reads := [], effects := match x.ownEffect with | some e => [e] | none => [] } causeEncoding
  else
    let y := x.fenced (s.entry x.event) s.gl.stepmax.toNat
    let s := s.setRun r (some y)
    if (s.runPorter r).state = .active then s.wakeRun r else s.strand r y

/-- The placements of a commit, in staging order: those handed in since `old` are held for source order or placed (05 R115, 03 R52). -/
def placeCommitted (old s : State) : State :=
  let new := s.rn.heldPl.filter fun h => !old.rn.heldPl.contains h
  new.foldl (fun s h => s.intake h.event h.reqs none) { s with rn.heldPl := s.rn.heldPl.filter fun h => old.rn.heldPl.contains h }

/-- The effects on one item are one access group: VERSION of each entry and context that a commit changed is one past what it was (05
R115). -/
def oneVersion (old s : State) : State :=
  let s := (tchanged old.lt.entries s.lt.entries).foldl (fun s e =>
    let v := (old.entry e).version
    if (s.entry e).version = v then s else s.setEntry e { s.entry e with version := v + 1 }) s
  (tchanged old.lg.ctxs s.lg.ctxs).foldl (fun s c =>
    let v := (old.ctx c).version
    if (s.ctx c).version = v then s else s.setCtx c { s.ctx c with version := v + 1 }) s

/-- The lines of the entries that run x read post as its changes from old bring (02 R22): after its commit's last group (05 R116). -/
def State.linesRepost (old s : State) (x : Run) : State :=
  x.reads.foldl (fun s it => match it.item with | .entry e => s.lineRepost (old.lineActive (e - 0x40)) e | .ctx _ => s) s

/-- The staged effects of run x apply in staging order, each item's in one group; its locks keep every other step's changes away (05
R115, R116). -/
def State.applyEffects (s : State) (x : Run) (done : Bool) (reqs : Option (List (Source × Nat))) : State :=
  let t := x.effects.foldl (fun s f =>
    if x.isOwn f then (if done then s.commitOwn x reqs f else s) else s.commitEffect reqs f) s
  oneVersion s (if done then t.consume x else t)

/-- Phase B of run x: records leave, effects apply, locks clear, then placements, records, messages and what waited on its items are
handed on (05 R115). -/
def State.phaseB (s : State) (r : RunRef) (x : Run) (done : Bool) : State :=
  let reqs := some (s.stampsOf x.event)
  let pay := (fld (s.entry x.event).payload 0 24).toNat
  let rec_ := s.dropLatched x
  let old := if done then rec_.2.settlePostings x.event else rec_.2
  let s := old.linesRepost ((placeCommitted old ((old.applyEffects x done reqs).unlock r x)).handOn r x) x
  rec_.1.foldl (fun s src => s.postAgain src pay) s

/-- COMMIT_PHASE_B: what passed phase A commits, unless an item of it is being restored or rebuilt; egress writes that find no room
keep the context waiting (16 R347). -/
def State.commitB (s : State) (r : RunRef) : State :=
  match s.run r with
  | none => s
  | some x =>
    let done : Bool := x.phase = .commitDone
    if !(done || x.phase = .commitFence) || s.waitsGrant r || x.reads.any fun it => s.itemWaits it.item then s
    else
      let s := s.phaseB r x done
      if s.spilled r then
        (s.releaseToken r).setRun r (some { x with phase := if done then .egressDone else .egressFence, reads := [] })
      else if done then s.finishDone r x
      else s.finishFence r x

/-- The commits whose egress writes have all been taken end (16 R347). -/
def State.egressEnds (s : State) : State :=
  s.allRuns.foldl (fun s p =>
    if s.spilled p.1 then s
    else match p.2.phase with
      | .egressDone => s.finishDone p.1 p.2
      | .egressFence => s.finishFence p.1 p.2
      | _ => s) s

/-! ### The serial token (05 R117) -/

/-- The first waiting run receives the token; it waits for the lock of its own entry. -/
def State.tokenGrant (s : State) : State :=
  if s.pa.serialHeld.isSome then s
  else match s.pa.serialQ with
  | [] => s
  | r :: l =>
    match s.run r with
    | none => { s with pa.serialQ := l }
    | some x =>
      if s.busy x.event then s
      else
        let s := { s with pa.serialQ := l, pa.serialHeld := some r, pa.serialCnt := if x.serial then s.pa.serialCnt else satInc s.pa.serialCnt }
        (s.runAgain r { x with serial := true }).wakeRun r

/-! ### FWAIT (07 R189) -/

/-- An earlier run of function f has not ended. -/
def State.earlierRun (s : State) (x : Run) (f : BitVec 10) : Bool := s.allRuns.any fun p => p.2.fn = f && p.2.order < x.order

/-- A waiting FWAIT is satisfied: its run goes on at the FWAIT, or asks for the token again. -/
def State.fwaitResume (s : State) (r : RunRef) : State :=
  match s.run r with
  | none => s
  | some x => match x.phase with
    | .fwait f =>
      if s.earlierRun x f then s
      else
        let y := { x with fwaited := x.fwaited ++ [f] }
        if y.serial then
          { s.setRun r (some { y with phase := .serialWait }) with pa.serialQ := s.pa.serialQ ++ [r] }
        else (s.setRun r (some { y with phase := .running })).wakeRun r
    | _ => s

/-! ### Failures of Porters (05 R113, 13 Table 13-3) -/

/-- A task that a failed Porter had taken goes back: to the head of its queue, whose ticket advances, or, where that holds 64 tasks, to the
head of its bank's dispatch list (05 R105, R111). -/
def State.putBack (s : State) (k e : Nat) : State :=
  if (s.queue k).tasks.length < 64 then
    (s.modQueue k fun y => { y with tasks := e :: y.tasks, ticket := y.ticket + 1 }).modSide e fun d => { d with task := true }
  else if s.dispatchable e && !(s.dlist (s.bank e)).contains e then s.modDlist (s.bank e) (e :: ·)
  else s

/-- Porter p of cluster k fails, for the cause that PORTER_SPARED names. -/
def State.porterFail (s : State) (k p why : Nat) : State :=
  if (s.porter k p).state ≠ .active then s
  else
    let spare := (List.range 5).find? fun q => (s.porter k q).state = .spare
    let old := s.porter k p
    let s := s.modPorter k p fun y => { y with state := .failed, hint := none, switched := none, task0 := none, task1 := none, named := 0 }
    let s := match spare with
      | some q => s.modPorter k q fun y => { y with state := .active, exec := old.exec, task0 := old.task0, task1 := old.task1, named := old.named }
      | none => (old.dropNamed.task0.toList ++ old.dropNamed.task1.toList).reverse.foldl (fun s e => s.putBack k e) s
    let r (c : BitVec 1) : RunRef := ⟨BitVec.ofNat 4 k, BitVec.ofNat 3 p, c⟩
    let s := (s.rescue spare (r 0)).rescue spare (r 1)
    s.internal srcSpared (pack [(4, k), (3, p), (1, b2n spare.isSome), (2, why)])

/-! ### Reload and pace (05 R127, R134) -/

/-- A reload of copy k ends: the runs that met the bad word begin their segments again. -/
def State.reloadDone (s : State) (k : Nat) : State :=
  if !bit s.st.reloading k then s
  else (s.reloadEnd k).allRuns.foldl (fun s p =>
    if p.1.cluster.toNat = k && p.2.phase = .reload then s.runAgain p.1 p.2 else s) (s.reloadEnd k)

/-- A window of the replica ends with n steps. -/
def State.paceEnd (s : State) (n : BitVec 12) : State :=
  let q := s.pa
  { s with
    pa.pace := n, pa.paceValid := true, pa.paceNew := false,
    pa.paceMin := if q.paceNew || n < q.paceMin then n else q.paceMin,
    pa.paceMax := if q.paceNew || q.paceMax < n then n else q.paceMax }

end Sys2Proof.Machine
end

