-- ==== Sys2Proof/Machine/Lequin.lean ====
section
/-! DEFINITION. The frame every Lequin instruction stands in, and opcodes 0x00 to 0x1F: arithmetic, moves, control (06). -/
namespace Sys2Proof.Machine

/-! ### The frame (06 R145, R152, R159) -/

/-- What follows a change that may have ended access groups: the offers that waited for them are settled, stranded runs look for a
context, and the commands that waited are presented (05 R113, R116). -/
def State.after (s : State) : State :=
  let t := (s.rn.unsettled.foldl (fun (s : State) t => s.settle t) { s with rn.unsettled := [] }).rehomeAll
  ((if s.rn.unsettled = [] && s.pa.stranded = [] then s else finNow s t).sendDue).replay

/-- What an instruction that ends a run's execution owes: the change is finished, and what waited for its locks goes on. -/
def State.closing (s : State) (c : Instr) (t : State) : State := (fin s c t).after

/-- Run x at run context r executes opcode op with fields f. The command names the word at the run's PC; another word is no command
of this instant. Causes are judged in the order of R159: the encoding, the budget, the instruction's own. -/
def State.lq (s : State) (c : Instr) (r : RunRef) (op : Nat) (f : LqFields) (good : Run → Bool) (body : Run → LqOut) : State :=
  match s.stepping r with
  | none => s
  | some x =>
    if s.copyBad r.cluster.toNat x.pc.toNat then s.closing c (s.fetchError r x)
    else if lqWord op f ≠ s.copyWord r.cluster.toNat x.pc.toNat then s
    else if lqWord op f = 0 || !good x then s.closing c (s.trapRun r x causeEncoding)
    else if x.budget ≤ x.steps then s.closing c (s.trapRun r x causeStep)
    else
      let y := { x with steps := x.steps + 1 }
      match body y with
      | .cont z t =>
        if z.pc = 0xFFF then s.closing c (t.trapRun r z causeEncoding) else t.setRun r (some { z with pc := z.pc + 1 })
      | .goto p z t => t.setRun r (some { z with pc := p })
      | .trap cause counted => s.closing c (s.trapRun r (if counted then y else x) cause)
      | .hold t => t
      | .ended t => s.closing c t

/-! ### Arithmetic and logic (06 R148, R149) -/

/-- An instruction of 0x00 to 0x0D: the result is written. -/
def State.lqAlu (s : State) (c : Instr) (r : RunRef) (op : Nat) (f : LqFields) (g : Run → Nat → Nat → Nat → Alu) : State :=
  s.lq c r op f (fun _ => f.okFA) fun x =>
    let v := g x f.width (x.opA f) (x.opB f)
    .cont ((x.setD f v.res).setZnc f.width v) s

/-- CMP and TST: only the flags are written. -/
def State.lqTest (s : State) (c : Instr) (r : RunRef) (op : Nat) (f : LqFields) (g : Nat → Nat → Nat → Alu) : State :=
  s.lq c r op f (fun _ => f.okFC) fun x => .cont (x.setZnc f.width (g f.width (x.opA f) (x.opB f))) s

/-- The shift amount (06 R149). -/
def shiftOf (b : Nat) : Nat := b % 32

/-! ### Moves (06 R150, R151) -/

def LqFields.okMov (f : LqFields) : Bool := f.only { d := true, a := true }
def LqFields.okMovi (f : LqFields) : Bool := f.only { x := true, d := true, k := true } && (!f.x || isPair f.d)
def LqFields.okLdi24 (f : LqFields) : Bool :=
  f.only { x := true, d := true, c := true, b := true, a := true, k := true } && f.x && isPair f.d
def LqFields.okMovd (f : LqFields) : Bool := f.only { x := true, d := true, a := true } && f.x && isPair f.d && isPair f.a
def LqFields.okSel (f : LqFields) : Bool := f.only { d := true, a := true, b := true, c := true } && f.c.toNat ≤ 12

/-- BITF's position and length. -/
def bitPos (f : LqFields) : Nat := (fld f.k 0 4).toNat
def bitLen (f : LqFields) : Nat := (fld f.k 4 4).toNat
def LqFields.okBitf (f : LqFields) : Bool :=
  f.only { i := true, d := true, a := true, k := true } && fld f.k 8 4 = 0 && 1 ≤ bitLen f && bitLen f ≤ 12 && bitPos f + bitLen f ≤ 12

/-- The value that BITF writes to Wd, which held d, from Wa = a (06 R151). -/
def bitf (insert : Bool) (pos len : Nat) (d a : BitVec 12) : BitVec 12 :=
  let m : BitVec 12 := BitVec.ofNat 12 (2 ^ len - 1)
  if insert then (d &&& ~~~(m <<< pos)) ||| ((a &&& m) <<< pos) else (a >>> pos) &&& m

def Run.bitf (x : Run) (f : LqFields) : Run :=
  let v := Machine.bitf f.i (bitPos f) (bitLen f) (x.w f.d.toNat) (x.w f.a.toNat)
  { x.setW f.d.toNat v with z := v = 0, n := bit v 11 }

/-! ### Special registers (06 R142, R143) -/

/-- FLAGS as RDS returns it. -/
def Run.flags (x : Run) : BitVec 12 :=
  BitVec.ofNat 12 (pack [(1, b2n x.z), (1, b2n x.c), (1, b2n x.n), (1, b2n x.f), (1, b2n x.rndv), (1, b2n x.serial), (1, b2n x.rerun)])

/-- FLAGS as WRS writes it. -/
def Run.setFlags (x : Run) (v : BitVec 12) : Run := { x with z := bit v 0, c := bit v 1, n := bit v 2, f := bit v 3 }

/-- WHERE. -/
def State.whereWord (s : State) (r : RunRef) : BitVec 12 :=
  BitVec.ofNat 12 (pack [(4, r.cluster.toNat), (3, r.porter.toNat), (1, r.ctx.toNat), (2, s.gl.index.toNat), (1, b2n s.mirrorOn)])

/-- Numbers that Table 06-2 assigns. -/
def srAssigned (k : Nat) : Bool := k ≤ 6 || (0x10 ≤ k && k ≤ 0x27) || (0x40 ≤ k && k ≤ 0x50)

/-- A special register that is no record register. -/
def State.special (s : State) (r : RunRef) (x : Run) (k : Nat) : BitVec 12 :=
  match k with
  | 0 => x.flags
  | 1 => BitVec.ofNat 12 x.steps
  | 2 => BitVec.ofNat 12 x.budget
  | 3 => BitVec.ofNat 12 x.conflicts
  | 4 => s.whereWord r
  | 5 => BitVec.ofNat 12 x.stack.length
  | 6 => x.entryPc
  | 0x50 => x.cacheGen.getD 0
  | _ => x.cache.getD (k - 0x40) 0

/-- The source entry whose records special register k shows. -/
def recordSource (k : Nat) : Nat :=
  [srcOfferTmo, srcServiceTmo, srcExpiry, srcTwokey, srcItinTrap, srcStepTrap].getD ((k - 0x10) / 4) srcOfferTmo

/-- An RDS of record register k into Wd (06 R143). -/
def State.rdsRecord (s : State) (r : RunRef) (x : Run) (d k : Nat) : LqOut :=
  let src := recordSource k
  let give (x : Run) (t : State) (v : BitVec 48) : LqOut := .cont { x.setW d (v.extractLsb' (12 * (k % 4)) 12) with z := false } t
  let nothing : LqOut := .cont { x.setW d 0 with z := true } s
  if x.event ≠ src then nothing
  else match tget none x.latched src with
    | some v => give x s v
    | none => match s.headRecord src with
      | none => nothing
      | some (v, item) =>
        withItem r item s x s fun y t _ => give { y with latched := tset none y.latched src (some v) } t v

/-! ### Control (06 R153 to R155) -/

def LqFields.okBc (f : LqFields) : Bool := f.only { d := true, k := true } && f.d.toNat ≤ 12
def LqFields.okSwitch (f : LqFields) : Bool :=
  f.only { a := true, b := true, c := true, k := true } && 1 ≤ f.count && f.k.toNat + f.count - 1 ≤ 0xFFF
def LqFields.okBudget (f : LqFields) : Bool := f.only { i := true, d := true, a := !f.i, k := f.i }

/-! ### The meanings -/

def execAdd (r : RunRef) (f : LqFields) (s : State) : Host.Outcome State Fault Refusal :=
  .next (s.lqAlu (.add r f) r 0x00 f fun _ w a b => aluAdd w a b 0)

def execAddc (r : RunRef) (f : LqFields) (s : State) : Host.Outcome State Fault Refusal :=
  .next (s.lqAlu (.addc r f) r 0x01 f fun x w a b => aluAdd w a b (b2n x.c))

def execSub (r : RunRef) (f : LqFields) (s : State) : Host.Outcome State Fault Refusal :=
  .next (s.lqAlu (.sub r f) r 0x02 f fun _ w a b => aluSub w a b 0)

def execSubb (r : RunRef) (f : LqFields) (s : State) : Host.Outcome State Fault Refusal :=
  .next (s.lqAlu (.subb r f) r 0x03 f fun x w a b => aluSub w a b (b2n x.c))

def execAnd (r : RunRef) (f : LqFields) (s : State) : Host.Outcome State Fault Refusal :=
  .next (s.lqAlu (.and r f) r 0x04 f fun _ _ a b => aluAnd a b)

def execOr (r : RunRef) (f : LqFields) (s : State) : Host.Outcome State Fault Refusal :=
  .next (s.lqAlu (.or r f) r 0x05 f fun _ _ a b => aluOr a b)

def execXor (r : RunRef) (f : LqFields) (s : State) : Host.Outcome State Fault Refusal :=
  .next (s.lqAlu (.xor r f) r 0x06 f fun _ _ a b => aluXor a b)

def execAndn (r : RunRef) (f : LqFields) (s : State) : Host.Outcome State Fault Refusal :=
  .next (s.lqAlu (.andn r f) r 0x07 f fun _ w a b => aluAndn w a b)

def execShl (r : RunRef) (f : LqFields) (s : State) : Host.Outcome State Fault Refusal :=
  .next (s.lqAlu (.shl r f) r 0x08 f fun _ w a b => aluShl w a (shiftOf b))

def execShr (r : RunRef) (f : LqFields) (s : State) : Host.Outcome State Fault Refusal :=
  .next (s.lqAlu (.shr r f) r 0x09 f fun _ w a b => aluShr w a (shiftOf b))

def execSar (r : RunRef) (f : LqFields) (s : State) : Host.Outcome State Fault Refusal :=
  .next (s.lqAlu (.sar r f) r 0x0A f fun _ w a b => aluSar w a (shiftOf b))

def execRol (r : RunRef) (f : LqFields) (s : State) : Host.Outcome State Fault Refusal :=
  .next (s.lqAlu (.rol r f) r 0x0B f fun _ w a b => aluRol w a (shiftOf b))

def execMin (r : RunRef) (f : LqFields) (s : State) : Host.Outcome State Fault Refusal :=
  .next (s.lqAlu (.min r f) r 0x0C f fun _ _ a b => aluMin a b)

def execMax (r : RunRef) (f : LqFields) (s : State) : Host.Outcome State Fault Refusal :=
  .next (s.lqAlu (.max r f) r 0x0D f fun _ _ a b => aluMax a b)

def execCmp (r : RunRef) (f : LqFields) (s : State) : Host.Outcome State Fault Refusal :=
  .next (s.lqTest (.cmp r f) r 0x0E f fun w a b => aluSub w a b 0)

def execTst (r : RunRef) (f : LqFields) (s : State) : Host.Outcome State Fault Refusal :=
  .next (s.lqTest (.tst r f) r 0x0F f fun _ a b => aluAnd a b)

def execMov (r : RunRef) (f : LqFields) (s : State) : Host.Outcome State Fault Refusal :=
  .next (s.lq (.mov r f) r 0x10 f (fun _ => LqFields.okMov f) fun x => .cont (x.setW f.d.toNat (x.w f.a.toNat)) s)

def execMovi (r : RunRef) (f : LqFields) (s : State) : Host.Outcome State Fault Refusal :=
  .next (s.lq (.movi r f) r 0x11 f (fun _ => LqFields.okMovi f) fun x => .cont (x.setD f f.k.toNat) s)

def execLdi24 (r : RunRef) (f : LqFields) (s : State) : Host.Outcome State Fault Refusal :=
  .next (s.lq (.ldi24 r f) r 0x12 f (fun _ => LqFields.okLdi24 f) fun x => .cont (x.setDn f.d.toNat f.s12) s)

def execMovd (r : RunRef) (f : LqFields) (s : State) : Host.Outcome State Fault Refusal :=
  .next (s.lq (.movd r f) r 0x13 f (fun _ => LqFields.okMovd f) fun x => .cont (x.setDn f.d.toNat (x.dn f.a.toNat)) s)

def execRds (r : RunRef) (f : LqFields) (s : State) : Host.Outcome State Fault Refusal :=
  .next (s.lq (.rds r f) r 0x14 f (fun _ => f.only { d := true, k := true } && srAssigned f.k.toNat) fun x =>
    if 0x10 ≤ f.k.toNat && f.k.toNat ≤ 0x27 then s.rdsRecord r x f.d.toNat f.k.toNat
    else .cont (x.setW f.d.toNat (s.special r x f.k.toNat)) s)

def execWrs (r : RunRef) (f : LqFields) (s : State) : Host.Outcome State Fault Refusal :=
  .next (s.lq (.wrs r f) r 0x15 f (fun _ => f.only { a := true }) fun x => .cont (x.setFlags (x.w f.a.toNat)) s)

def execSel (r : RunRef) (f : LqFields) (s : State) : Host.Outcome State Fault Refusal :=
  .next (s.lq (.sel r f) r 0x16 f (fun _ => LqFields.okSel f) fun x =>
    .cont (x.setW f.d.toNat (if x.cond f.c then x.w f.a.toNat else x.w f.b.toNat)) s)

def execBitf (r : RunRef) (f : LqFields) (s : State) : Host.Outcome State Fault Refusal :=
  .next (s.lq (.bitf r f) r 0x17 f (fun _ => LqFields.okBitf f) fun x => .cont (x.bitf f) s)

def execBr (r : RunRef) (f : LqFields) (s : State) : Host.Outcome State Fault Refusal :=
  .next (s.lq (.br r f) r 0x18 f (fun _ => f.okFT) fun x => .goto f.k x s)

def execBc (r : RunRef) (f : LqFields) (s : State) : Host.Outcome State Fault Refusal :=
  .next (s.lq (.bc r f) r 0x19 f (fun _ => LqFields.okBc f) fun x => if x.cond f.d then .goto f.k x s else .cont x s)

def execCall (r : RunRef) (f : LqFields) (s : State) : Host.Outcome State Fault Refusal :=
  .next (s.lq (.call r f) r 0x1A f (fun x => f.okFT && x.pc ≠ 0xFFF) fun x =>
    if 4 ≤ x.stack.length then .trap causeStack false else .goto f.k { x with stack := (x.pc + 1) :: x.stack } s)

def execRet (r : RunRef) (f : LqFields) (s : State) : Host.Outcome State Fault Refusal :=
  .next (s.lq (.ret r f) r 0x1B f (fun _ => f.okFN) fun x =>
    match x.stack with
    | [] => .trap causeStack false
    | a :: l => .goto a { x with stack := l } s)

def execSwitch (r : RunRef) (f : LqFields) (s : State) : Host.Outcome State Fault Refusal :=
  .next (s.lq (.switch r f) r 0x1C f (fun _ => LqFields.okSwitch f) fun x =>
    if (x.w f.a.toNat).toNat < f.count then .goto (f.k + x.w f.a.toNat) x s else .cont x s)

def execBudget (r : RunRef) (f : LqFields) (s : State) : Host.Outcome State Fault Refusal :=
  .next (s.lq (.budget r f) r 0x1D f (fun _ => LqFields.okBudget f) fun x =>
    let b := min x.budget (x.waOrK f).toNat
    if b ≤ x.steps then .trap causeStep false
    else .cont { x.setW f.d.toNat (BitVec.ofNat 12 (b - x.steps)) with budget := b } s)

def execDone (r : RunRef) (f : LqFields) (s : State) : Host.Outcome State Fault Refusal :=
  .next (s.lq (.done r f) r 0x1E f (fun _ => f.okFN) fun x => s.commitA r x true)

def execTrap (r : RunRef) (f : LqFields) (s : State) : Host.Outcome State Fault Refusal :=
  .next (s.lq (.trap r f) r 0x1F f (fun _ => f.okFN) fun _ => .trap causeTrap true)

end Sys2Proof.Machine
end

