-- ==== Sys2Proof/Machine/LqTable.lean ====
section
/-! DEFINITION. Staged views, and opcodes 0x20 to 0x27: the instructions that read and change lodging entries (07 R165 to R177). -/
namespace Sys2Proof.Machine

/-! ### Staged views (07 R165) -/

/-- A view after a change of state: RUN does not outlive POSTED, MERGES does not outlive the posting. -/
def Entry.to (x : Entry) (st : EvState) : Entry :=
  { x with state := st, run := x.run && st = .posted, merges := if st = .idle then 0 else x.merges }

/-- The view after the operand entry's Post as Table 02-8 and R39 give it; none where it is Busy or refused. `merges` says whether a
merge is made, `pay` how the payload changes from the old one. -/
def Entry.posted (x : Entry) (merges : Bool) (pay : BitVec 36 → BitVec 36) (idlePay : BitVec 36) : Option Entry :=
  match x.state with
  | .idle => some ({ x with payload := idlePay }.to x.lodged)
  | .parked => some ({ x with payload := pay x.payload, merges := satInc x.merges }.to x.lodged)
  | .claimed => some { x with state := .claimedRepost, payload := idlePay }
  | .heldJoin | .heldTwokey | .faulted => none
  | _ => if merges then some { x with payload := pay x.payload, merges := satInc x.merges } else none

/-- MASK set or clear on a view. -/
def Entry.masked (x : Entry) (b : Bool) : Entry :=
  let y := { x with mask := b }
  if b then (if x.state = .offered then { y with state := .queued } else y)
  else if x.mask && x.state = .posted && x.direct then y.to .queued else y

/-- A field of a view by its selector; VERSION is the one recorded (07 Table 07-3). -/
def ReadItem.field (it : ReadItem) (sel : BitVec 12) : BitVec 12 :=
  let x := it.entry
  match sel.toNat with
  | 0 => x.low
  | 1 => x.priority
  | 2 => BitVec.ofNat 12 (pack [(10, x.target.toNat), (2, x.tmode.toNat)])
  | 3 => x.context
  | 4 => x.function.setWidth 12
  | 5 => fld x.payload 0 12
  | 6 => fld x.payload 12 12
  | 7 => fld x.payload 24 12
  | 8 => x.entryPc
  | 9 => it.version
  | 10 => BitVec.ofNat 12 (pack [(4, x.merges.toNat), (3, x.cls.toNat)])
  | _ => 0

/-- An IDLE or PARKED view takes an entry setup (02 Table 02-8). -/
def Entry.settable (x : Entry) : Bool := x.state = .idle || x.state = .parked

/-- What an STL of selector k and value v stages on entry e and the view it leaves; none where it is refused (07 R171). -/
def State.stlEffect (s : State) (e : Nat) (x : Entry) (k v : BitVec 12) : Option (Effect × Entry) :=
  let y := x.withField k v
  let setup (f : Effect) : Option (Effect × Entry) := if x.settable && (s.setupFault y).isNone then some (f, y) else none
  if x.state = .faulted then none
  else if k = 0 then
    if y = x then some (.same e, x)
    else if { y with mask := x.mask } = x then some (.mask e y.mask, x.masked y.mask)
    else setup (.flags e v)
  else setup (.field e k v)

/-- The run's own entry keeps its own effect; a second one is refused (07 R169). -/
def Run.ownFree (x : Run) (e : Nat) : Bool := e ≠ x.event || x.ownEffect.isNone

/-- Accept an effect that leaves view v on entry e. -/
def acceptEntry (x : Run) (t : State) (e : Nat) (v : Entry) (f : Effect) : LqOut := accept (x.setEntryView e v) t f

/-- Read the entry that pair Da names, then go on; an event above 0x1_FFFF is refused (07 R166). -/
def withEntry (r : RunRef) (f : LqFields) (x : Run) (s : State) (k : Nat → Run → State → Entry → LqOut) : LqOut :=
  match x.eventA f with
  | none => refuse x s
  | some e => withItem r (.entry e) s x s fun y t it => k e y t it.entry

/-- STL on entry e: an own entry is refused, a payload word is remembered for R182. -/
def State.stage (t : State) (x : Run) (e : Nat) (v : Entry) (k val : BitVec 12) : LqOut :=
  if e = x.event then refuse x t
  else match t.stlEffect e v k val with
    | none => refuse x t
    | some (f, y) =>
      let x := if 5 ≤ k.toNat && k.toNat ≤ 7 then { x with stlPay := x.stlPay ++ [e] } else x
      acceptEntry x t e y f

/-- The merges that the effects staged on entry e will make: a first post of a CLAIMED entry makes none. -/
def State.stagedMerges (s : State) (x : Run) (e : Nat) : Nat :=
  let n := x.effects.countP fun f => match f with | .post m _ _ _ => m = e | .coal m _ => m = e | _ => false
  if (s.entry e).state = .claimed then n - 1 else n

/-- A further merge into entry e would take UCOUNT 15 ahead (12 R285). -/
def State.mergeFull (s : State) (x : Run) (e : Nat) : Bool :=
  let d := s.side e
  d.room.isSome && 15 ≤ (d.ucount - d.acked).toNat + s.stagedMerges x e + 1

/-! ### Encodings -/

def LqFields.okLdl (f : LqFields) : Bool := f.only { d := true, a := true, k := true } && isPair f.a && f.k.toNat ≤ 0xA
def LqFields.okStl (f : LqFields) : Bool := f.only { a := true, b := true, k := true } && isPair f.a && stlSel f.k
def LqFields.okCasl (f : LqFields) : Bool := f.only { d := true, a := true, b := true, k := true } && isPair f.a && stlSel f.k
def LqFields.okPost (f : LqFields) : Bool :=
  f.only { a := true, b := true, k := true } && isPair f.a && f.b.toNat ≤ 13 && f.k.toNat ≤ 3
def LqFields.okCoal (f : LqFields) : Bool := f.only { a := true, b := true } && isPair f.a && f.b.toNat ≤ 13
def LqFields.okSetpri (f : LqFields) : Bool := f.only { i := true, a := true, b := !f.i, k := f.i } && isPair f.a

/-! ### The meanings -/

def execLdl (r : RunRef) (f : LqFields) (s : State) : Host.Outcome State Fault Refusal :=
  .next (s.lq (.ldl r f) r 0x20 f (fun _ => LqFields.okLdl f) fun x =>
    match x.eventA f with
    | none => .cont { x.setW f.d.toNat 0 with z := true, n := false } s
    | some e => withItem r (.entry e) s x s fun y t it =>
      let v := it.field f.k
      .cont { y.setW f.d.toNat v with z := v = 0, n := bit v 11 } t)

def execStl (r : RunRef) (f : LqFields) (s : State) : Host.Outcome State Fault Refusal :=
  .next (s.lq (.stl r f) r 0x21 f (fun _ => LqFields.okStl f) fun x =>
    withEntry r f x s fun e y t v => t.stage y e v f.k (y.w f.b.toNat))

def execCasl (r : RunRef) (f : LqFields) (s : State) : Host.Outcome State Fault Refusal :=
  .next (s.lq (.casl r f) r 0x22 f (fun _ => LqFields.okCasl f) fun x =>
    match x.eventA f with
    | none => refuse x s
    | some e => withItem r (.entry e) s x s fun y t it =>
      let old := it.field f.k
      let same : Bool := old = y.w f.d.toNat
      let v := y.w f.b.toNat
      let y := { y.setW f.d.toNat old with z := same }
      if same then t.stage y e it.entry f.k v
      else .cont { y with f := false } t)

def execPost (r : RunRef) (f : LqFields) (s : State) : Host.Outcome State Fault Refusal :=
  .next (s.lq (.post r f) r 0x23 f (fun _ => LqFields.okPost f) fun x =>
    withEntry r f x s fun e y t v =>
      let keep := bit f.k 0
      let p := y.three f.b.toNat
      let pay (old : BitVec 36) : BitVec 36 := if keep then old else p
      if e < msgBase || !y.ownFree e then refuse y t
      else if e = y.event then
        if v.state = .posted then acceptEntry y t e { v with payload := pay v.payload } (.post e p keep (bit f.k 1)) else refuse y t
      else match v.posted (v.coalesce && !bit f.k 1 && !t.mergeFull y e) pay (pay v.payload) with
        | some w => acceptEntry y t e w (.post e p keep (bit f.k 1))
        | none => refuse y t)

def execCancel (r : RunRef) (f : LqFields) (s : State) : Host.Outcome State Fault Refusal :=
  .next (s.lq (.cancel r f) r 0x24 f (fun _ => f.okPairA) fun x =>
    withEntry r f x s fun e y t v =>
      if !y.ownFree e then refuse y t
      else match v.state with
        | .posted | .queued | .offered | .heldCurfew | .parked => acceptEntry y t e (v.to .idle) (.cancel e)
        | .claimedRepost => acceptEntry y t e (v.to .claimed) (.cancel e)
        | _ => refuse y t)

def execCoal (r : RunRef) (f : LqFields) (s : State) : Host.Outcome State Fault Refusal :=
  .next (s.lq (.coal r f) r 0x25 f (fun _ => LqFields.okCoal f) fun x =>
    withEntry r f x s fun e y t v =>
      let p := y.three f.b.toNat
      if e < msgBase || e = y.event then refuse y t
      else match v.posted (!t.mergeFull y e) (fun old => old ||| p) p with
        | some w => acceptEntry y t e w (.coal e p)
        | none => refuse y t)

def execPark (r : RunRef) (f : LqFields) (s : State) : Host.Outcome State Fault Refusal :=
  .next (s.lq (.park r f) r 0x26 f (fun _ => f.okPairA) fun x =>
    withEntry r f x s fun e y t v =>
      if y.ownFree e && v.state = .posted then acceptEntry y t e (v.to .parked) (.park e) else refuse y t)

/-- SETPRI of entry e with view v and its context's view c, priority p (07 R177, 09 R221). -/
def State.setpri (t : State) (y : Run) (e : Nat) (v : Entry) (c : Option Ctx) (p : BitVec 12) : LqOut :=
  let p := match c with | some c => if c.state = .opened && p < c.floor then c.floor else p | none => p
  if e = y.event || v.state = .faulted || (v.direct && p = 0) || t.priCeil v.function.toNat < p then refuse y t
  else acceptEntry y t e { v with priority := p } (.setpri e p)

def execSetpri (r : RunRef) (f : LqFields) (s : State) : Host.Outcome State Fault Refusal :=
  .next (s.lq (.setpri r f) r 0x27 f (fun _ => LqFields.okSetpri f) fun x =>
    withEntry r f x s fun e y t v =>
      if v.ctxv then withItem r (.ctx v.context.toNat) s y t fun y t c => t.setpri y e v (some c.ctx) (y.wbOrK f)
      else t.setpri y e v none (y.wbOrK f))

end Sys2Proof.Machine
end

