-- ==== Sys2Proof/Machine/LqLedger.lean ====
section
/-! DEFINITION. Opcodes 0x28 to 0x2F: the instructions that read and change ledger contexts (07 R178 to R182, 04 Table 04-2). -/
namespace Sys2Proof.Machine

/-- A word of a context's view by its selector (07 Table 07-4). -/
def State.ctxField (s : State) (it : ReadItem) (sel : BitVec 12) : BitVec 12 :=
  let x := it.ctx
  let n := s.nextOf x
  match sel.toNat with
  | 0 => BitVec.ofNat 12 (pack x.flags)
  | 1 => x.count
  | 2 => it.version
  | 3 => x.owner.setWidth 12
  | 4 => x.epoch
  | 5 => fld x.deadline 0 12
  | 6 => fld x.deadline 12 12
  | 7 => fld x.deadline 24 12
  | 8 => fld x.deadline 36 12
  | 9 => BitVec.ofNat 12 (pack [(4, x.curve.toNat), (3, x.step.toNat), (1, b2n x.boostEnd)])
  | 10 => fld x.follow 0 12
  | 11 => fld x.follow 12 12
  | 12 => x.floor
  | 13 => fld x.aux 0 12
  | 14 => fld x.aux 12 12
  | 15 => fld x.aux 24 12
  | 16 => fld n.2 0 12
  | 17 => fld n.2 12 12
  | 18 => fld n.2 24 12
  | 19 => fld n.2 36 12
  | _ => BitVec.ofNat 12 n.1.code

/-- The view of a follow-on after what a context's operation does to it (04 R83, 02 Table 02-9). -/
def Entry.followed (x : Entry) (act : FollowAct) (pay : Option (BitVec 36)) : Entry :=
  match act with
  | .none => x
  | .release unsat =>
    if x.state = .heldJoin then x.to (if unsat then .heldTwokey else x.lodged)
    else if x.state = .heldTwokey then x.to x.lodged
    else x
  | .unhold => if x.state = .heldJoin || x.state = .heldTwokey then x.to .idle else x
  | .gate st => { x with state := st, payload := pay.getD x.payload }

/-- Stage an operation's result on context c: its view and its follow-on's change (07 R165). -/
def stageCtx (x : Run) (t : State) (c : Nat) (o : Option CtxOut) (follow : Option Nat) (pay : Option (BitVec 36)) (f : Effect) :
    LqOut :=
  match o with
  | none => refuse x t
  | some o =>
    let y := x.setCtxView c o.ctx
    let y := match follow with
      | some e => match x.view (.entry e) with
        | some it => y.setEntryView e (it.entry.followed o.act pay)
        | none => y
      | none => y
    accept y t f

/-- Read context Wa, then go on. -/
def withCtx (r : RunRef) (f : LqFields) (x : Run) (s : State) (k : Nat → Run → State → Ctx → LqOut) : LqOut :=
  let c := (x.w f.a.toNat).toNat
  withItem r (.ctx c) s x s fun y t it => k c y t it.ctx

/-- Read the follow-on that context view v names, where FOLV is set, then go on with its state. -/
def withFollow (r : RunRef) (s0 : State) (x : Run) (t : State) (v : Ctx) (k : Run → State → Option Nat → EvState → LqOut) : LqOut :=
  if v.folv then withItem r (.entry v.follow.toNat) s0 x t fun y t it => k y t (some v.follow.toNat) it.entry.state
  else k x t none .idle

/-- Read the follow-on that pair Dc names where X is set, then go on; an event above 0x1_FFFF is refused. -/
def withNamed (r : RunRef) (f : LqFields) (s0 : State) (x : Run) (t : State) (k : Run → State → Option Nat → EvState → LqOut) :
    LqOut :=
  if !f.x then k x t none .idle
  else
    let e := (x.dn f.c.toNat).toNat
    if nEntries ≤ e then refuse x t
    else withItem r (.entry e) s0 x t fun y t it => k y t (some e) it.entry.state

/-- The named event is none at all: the instruction reads nothing (07 R166). -/
def Run.noEvent (x : Run) (f : LqFields) : Bool := f.x && nEntries ≤ (x.dn f.c.toNat).toNat

/-- The follow-on keeps its payload: the segment has written a word of it (07 R182). -/
def Run.keepsPay (x : Run) (e : Option Nat) : Bool := match e with | some e => x.stlPay.contains e | none => false

/-- A curve has a step in force above the ceiling p (09 R221). -/
def State.curveAbove (s : State) (k : Nat) (p : BitVec 12) : Bool :=
  (List.range 8).any fun i => (s.curve k i).valid && p < (s.curve k i).floor

/-! ### Encodings -/

def LqFields.okLdx (f : LqFields) : Bool := f.only { d := true, a := true, k := true } && f.k.toNat ≤ 0x14
def LqFields.okStx (f : LqFields) : Bool := f.only { a := true, b := true } && f.b.toNat ≤ 13
def LqFields.okJadd (f : LqFields) : Bool :=
  f.only { i := true, x := true, a := true, b := !f.i, k := f.i, c := f.x } && (!f.x || isPair f.c) && (!f.i || f.k ≠ 0)
def LqFields.okDlset (f : LqFields) : Bool := f.only { a := true, c := true, k := true } && f.c.toNat ≤ 12 && f.k.toNat ≤ 15
def LqFields.okKeyarm (f : LqFields) : Bool :=
  f.only { a := true, x := true, c := f.x, k := true } && (!f.x || isPair f.c) && f.k.toNat ≤ 3
def LqFields.okKeychk (f : LqFields) : Bool := f.only { a := true, b := true }

/-! ### The meanings -/

def execLdx (r : RunRef) (f : LqFields) (s : State) : Host.Outcome State Fault Refusal :=
  .next (s.lq (.ldx r f) r 0x28 f (fun _ => LqFields.okLdx f) fun x =>
    withItem r (.ctx (x.w f.a.toNat).toNat) s x s fun y t it =>
      let v := t.ctxField it f.k
      .cont { y.setW f.d.toNat v with z := v = 0, n := bit v 11 } t)

def execStx (r : RunRef) (f : LqFields) (s : State) : Host.Outcome State Fault Refusal :=
  .next (s.lq (.stx r f) r 0x29 f (fun _ => LqFields.okStx f) fun x =>
    withCtx r f x s fun c y t v =>
      stageCtx y t c (v.stx (y.three f.b.toNat)) none none (.stx c (y.three f.b.toNat)))

def execJoin (r : RunRef) (f : LqFields) (s : State) : Host.Outcome State Fault Refusal :=
  .next (s.lq (.join r f) r 0x2A f (fun _ => f.okA) fun x =>
    withCtx r f x s fun c y t v => withFollow r s y t v fun y t e st =>
      stageCtx y t c (v.join st) e none (.join c))

def execJadd (r : RunRef) (f : LqFields) (s : State) : Host.Outcome State Fault Refusal :=
  .next (s.lq (.jadd r f) r 0x2B f (fun _ => LqFields.okJadd f) fun x =>
    if x.noEvent f then refuse x s
    else withCtx r f x s fun c y t v => withNamed r f s y t fun y t e st =>
      let keep := y.keepsPay e
      stageCtx y t c (v.jadd (y.wbOrK f) e st) e (if keep then none else some y.ownPay) (.jadd c (y.wbOrK f) e y.ownPay keep))

def execDlset (r : RunRef) (f : LqFields) (s : State) : Host.Outcome State Fault Refusal :=
  .next (s.lq (.dlset r f) r 0x2C f (fun _ => LqFields.okDlset f) fun x =>
    withCtx r f x s fun c y t v =>
      let k := fld f.k 0 4
      let d := y.four f.c.toNat
      if t.curveAbove k.toNat (t.priCeil v.owner.toNat) then refuse y t
      else stageCtx y t c (v.dlset d k (t.boostEndFrom k.toNat 0)) none none (.dlset c d k))

def execDlclr (r : RunRef) (f : LqFields) (s : State) : Host.Outcome State Fault Refusal :=
  .next (s.lq (.dlclr r f) r 0x2D f (fun _ => f.okA) fun x =>
    withCtx r f x s fun c y t v => withFollow r s y t v fun y t e _ => stageCtx y t c v.dlclr e none (.dlclr c))

def execKeyarm (r : RunRef) (f : LqFields) (s : State) : Host.Outcome State Fault Refusal :=
  .next (s.lq (.keyarm r f) r 0x2E f (fun _ => LqFields.okKeyarm f) fun x =>
    if x.noEvent f then refuse x s
    else withCtx r f x s fun c y t v => withNamed r f s y t fun y t e st =>
      let keep := y.keepsPay e
      let w := fld f.k 0 2
      stageCtx y t c (v.keyarm w e st) e (if keep then none else some y.ownPay) (.keyarm c w e y.ownPay keep))

def execKeychk (r : RunRef) (f : LqFields) (s : State) : Host.Outcome State Fault Refusal :=
  .next (s.lq (.keychk r f) r 0x2F f (fun _ => LqFields.okKeychk f) fun x =>
    withCtx r f x s fun _ y t v =>
      .cont { y with z := v.state = .opened && v.expired && v.epoch = y.w f.b.toNat } t)

end Sys2Proof.Machine
end

