-- ==== Sys2Proof/Machine/LqDelivery.lean ====
section
/-! DEFINITION. Opcodes 0x30 to 0x36: the delivery instructions (07 R181 to R187). -/
namespace Sys2Proof.Machine

/-! ### OFFER (07 R181) -/

/-- The staged states from which an OFFER is accepted. -/
def EvState.offerable (st : EvState) : Bool :=
  st = .idle || st = .posted || st = .parked || st = .offered || st.taken

/-- The staged states from which a FWD is accepted. -/
def EvState.forwardable (st : EvState) : Bool := st = .idle || st = .posted || st = .parked

/-- A staging keeps the entry's payload: it was not IDLE, or the segment wrote a word of it (07 R182). -/
def Run.keepsPayload (x : Run) (e : Nat) (v : Entry) : Bool := v.state ≠ .idle || x.stlPay.contains e

/-- The run re-offers entry e after the service timeout whose record it has read, and the event is no longer taken: the timeout is stale (03 R73,
notes/assumptions/62.md). -/
def Run.staleReoffer (x : Run) (e : Nat) (st : EvState) : Bool :=
  x.event = srcServiceTmo && !st.taken && st ≠ .offered &&
    (match tget none x.latched srcServiceTmo with | some v => (fld v 0 17).toNat = e | none => false)

/-- OFFER of entry e with view v, under priority p, target, mode and context c; `isOpen` says that the named context is OPEN. -/
def State.offer (t : State) (y : Run) (e : Nat) (v : Entry) (p : BitVec 12) (tgt : BitVec 10) (m : BitVec 2) (c : Option Nat)
    (isOpen : Bool) : LqOut :=
  let keep := y.keepsPayload e v
  let w := v.withOffer p tgt m c y.ownPay keep
  if !y.ownFree e || !isOpen || !v.state.offerable || y.staleReoffer e v.state || (t.setupFault w).isSome ||
      t.priCeil v.function.toNat < p then refuse y t
  else acceptEntry y t e (w.to .queued) (.offer e p tgt m c y.ownPay keep)

def LqFields.okOffer (f : LqFields) : Bool :=
  f.only { a := true, b := true, c := true, k := true, x := true, d := f.x } && isPair f.a && f.k.toNat ≤ 1

def execOffer (r : RunRef) (f : LqFields) (s : State) : Host.Outcome State Fault Refusal :=
  .next (s.lq (.offer r f) r 0x30 f (fun _ => LqFields.okOffer f) fun x =>
    withEntry r f x s fun e y t v =>
      let p := y.w f.b.toNat
      let tgt := fld (y.w f.c.toNat) 0 10
      let m := fld f.k 0 2
      if f.x then
        let c := (y.w f.d.toNat).toNat
        withItem r (.ctx c) s y t fun y t it => t.offer y e v p tgt m (some c) (it.ctx.state = .opened)
      else t.offer y e v p tgt m none true)

/-! ### HINT and RETRACT (07 R187, 03 R76) -/

/-- Set or clear the hint of run context r's Porter. -/
def State.setHint (s : State) (r : RunRef) (h : Option (BitVec 8)) : State :=
  s.modRunPorter r fun p => { p with hint := h.map fun t => (t, r.ctx) }

def execHint (r : RunRef) (f : LqFields) (s : State) : Host.Outcome State Fault Refusal :=
  .next (s.lq (.hint r f) r 0x31 f (fun _ => f.okAorK 255) fun x =>
    let v := x.waOrK f
    .cont x (s.setHint r (if v.toNat ≤ 255 then some (fld v 0 8) else none)))

def execRetract (r : RunRef) (f : LqFields) (s : State) : Host.Outcome State Fault Refusal :=
  .next (s.lq (.retract r f) r 0x32 f (fun _ => f.okFN) fun x => .cont x (s.setHint r none))

/-! ### MSIX and NQW (07 R184, R185) -/

def execMsix (r : RunRef) (f : LqFields) (s : State) : Host.Outcome State Fault Refusal :=
  .next (s.lq (.msix r f) r 0x33 f (fun _ => f.okAorK 2047) fun x =>
    let v := x.waOrK f
    if (s.fn x.fn.toNat).vecCount ≤ v.toNat then refuse x s else accept x s (.msix (fld v 0 11)))

def LqFields.okNqw (f : LqFields) : Bool := f.only { a := true, b := true } && f.b.toNat ≤ 12

/-- The queue that NQW names: 0xFFF is the one of the own entry's TARGET, where its TMODE is FNOTIFY. -/
def Run.nqNamed (x : Run) (v : BitVec 12) : Option Nat :=
  if v ≠ 0xFFF then some v.toNat
  else match x.view (.entry x.event) with
    | some it => if it.entry.tmode = 2 then some (fld it.entry.target 0 9).toNat else none
    | none => none

/-- Function f holds queue q, enabled and with a free slot (09 R223). -/
def State.nqReady (s : State) (f q : Nat) : Bool :=
  let x := s.fn f
  q < x.nqCount && (x.nq q).enable && 0 < (x.nq q).freeSlots

/-- Reserve a slot of queue q (07 R184). -/
def State.reserveSlot (s : State) (f q : Nat) : State :=
  s.modFn f fun y => y.modNq q fun n => { n with reserved := n.reserved + 1 }

def execNqw (r : RunRef) (f : LqFields) (s : State) : Host.Outcome State Fault Refusal :=
  .next (s.lq (.nqw r f) r 0x34 f (fun _ => LqFields.okNqw f) fun x =>
    match x.nqNamed (x.w f.a.toNat) with
    | none => refuse x s
    | some q =>
      if s.nqReady x.fn.toNat q then accept x (s.reserveSlot x.fn.toNat q) (.nqw q (x.four f.b.toNat)) else refuse x s)

/-! ### FWD (07 R183) -/

/-- Reserve room n at peer b. -/
def State.reserveRoom (s : State) (b n : Nat) : State :=
  s.modPeer b fun p => { p with reserved := p.reserved ++ [BitVec.ofNat 12 n] }

def LqFields.okFwd (f : LqFields) : Bool := f.only { a := true, b := true } && isPair f.a

def execFwd (r : RunRef) (f : LqFields) (s : State) : Host.Outcome State Fault Refusal :=
  .next (s.lq (.fwd r f) r 0x35 f (fun _ => LqFields.okFwd f) fun x =>
    withEntry r f x s fun e y t v =>
      let tgt := fld (y.w f.b.toNat) 0 10
      let b := (fld tgt 8 2).toNat
      let keep := y.keepsPayload e v
      let w := { v with target := tgt, tmode := 3, payload := if keep then v.payload else y.ownPay }
      if !y.ownFree e || !v.state.forwardable || (t.setupFault w).isSome || !t.linkUp b then refuse y t
      else match t.freeRoom b with
        | none => refuse y t
        | some n => acceptEntry y (t.reserveRoom b n) e (w.to .queued) (.fwd e tgt (some (BitVec.ofNat 12 n)) y.ownPay keep))

/-! ### CURF (07 R186) -/

def LqFields.okCurf (f : LqFields) : Bool := f.only { a := true, k := true } && isPair f.a && f.k.toNat ≤ 7

def execCurf (r : RunRef) (f : LqFields) (s : State) : Host.Outcome State Fault Refusal :=
  .next (s.lq (.curf r f) r 0x36 f (fun _ => LqFields.okCurf f) fun x =>
    withEntry r f x s fun e y t v =>
      let w := { v with sensitive := true, cls := fld f.k 0 3 }
      if e = y.event || !v.settable || (t.setupFault w).isSome then refuse y t
      else acceptEntry y t e w (.curf e (fld f.k 0 3)))

end Sys2Proof.Machine
end

