-- ==== Sys2Proof/Machine/LqRun.lean ====
section
/-! DEFINITION. Opcodes 0x37 to 0x3F, the commit commands and the Porters' commands: LOG, FENCE, FWAIT, RAND, STEAL, TIME, SYNCGEN,
GENACK, NOP (07 R188 to R195, 05). -/
namespace Sys2Proof.Machine

/-! ### LOG (07 R188, 15 Table 15-6) -/

def LqFields.okLog (f : LqFields) : Bool := f.only { a := true, k := true } && f.a.toNat ≤ 14

/-- The LOG record of run x with tag k and registers n and n + 1. -/
def State.logRecord (s : State) (r : RunRef) (x : Run) (n : Nat) (k : BitVec 12) : Nat :=
  pack (s.gbHead 1 x.event ++ [(12, x.pc.toNat), (12, k.toNat), (12, (x.w n).toNat), (12, (x.w (n + 1)).toNat), (4, r.cluster.toNat),
    (3, r.porter.toNat), (1, b2n x.rerun)])

def execLog (r : RunRef) (f : LqFields) (s : State) : Host.Outcome State Fault Refusal :=
  .next (s.lq (.log r f) r 0x37 f (fun _ => LqFields.okLog f) fun x =>
    .cont x (if s.gb.logEn then (s.gbPut (s.logRecord r x f.a.toNat f.k)).payGap else s))

def execFence (r : RunRef) (f : LqFields) (s : State) : Host.Outcome State Fault Refusal :=
  .next (s.lq (.fence r f) r 0x38 f (fun _ => f.okFN) fun x => s.commitA r x false)

/-! ### FWAIT (07 R189) -/

/-- The run waits: it counts no step and its Porter turns to the other context; a serialised run gives up its token and locks. -/
def State.fwaitHold (s : State) (r : RunRef) (g : BitVec 10) : State :=
  match s.run r with
  | none => s
  | some x =>
    if x.serial then
      let s := ((s.unlock r x).discard x x.kept).releaseToken r
      (s.setRun r (some { x with phase := .fwait g, effects := x.kept, reads := [] })).pickExec r
    else (s.setRun r (some { x with phase := .fwait g })).pickExec r

def execFwait (r : RunRef) (f : LqFields) (s : State) : Host.Outcome State Fault Refusal :=
  .next (s.lq (.fwait r f) r 0x39 f (fun _ => f.okA) fun x =>
    let v := x.w f.a.toNat
    let g := fld v 0 10
    if 1024 ≤ v.toNat || x.fwaited.contains g || !s.earlierRun x g then
      .cont { x with fwaited := if 1024 ≤ v.toNat then x.fwaited else x.fwaited ++ [g] } s
    else .ended (s.fwaitHold r g))

/-! ### RAND, STEAL, TIME (07 R190 to R192) -/

def LqFields.okD (f : LqFields) : Bool := f.only { d := true }
def LqFields.okTime (f : LqFields) : Bool := f.only { d := true } && f.d.toNat ≤ 12

def execRand (r : RunRef) (f : LqFields) (s : State) : Host.Outcome State Fault Refusal :=
  .next (s.lq (.rand r f) r 0x3A f (fun _ => LqFields.okD f) fun x =>
    if s.fallback then
      let v := (s.runPorter r).randCtr + 1
      .cont { x.setW f.d.toNat v with rndv := false } (s.modRunPorter r fun p => { p with randCtr := v })
    else if s.poolBits < 12 then .hold s
    else .cont { x.setW f.d.toNat (Config.jitterBits s.free) with rndv := true } (s.useBits 12))

def execSteal (r : RunRef) (f : LqFields) (s : State) : Host.Outcome State Fault Refusal :=
  .next (s.lq (.steal r f) r 0x3B f (fun _ => f.okPairA) fun x => .cont { x with steal := x.eventA f } s)

def execTime (r : RunRef) (f : LqFields) (s : State) : Host.Outcome State Fault Refusal :=
  .next (s.lq (.time r f) r 0x3C f (fun _ => LqFields.okTime f) fun x => .cont (x.setFour f.d.toNat s.now) s)

/-! ### SYNCGEN and GENACK (07 R193, R194) -/

/-- The cached descriptor of run x is the current one. -/
def State.cacheCurrent (s : State) (x : Run) : Bool := x.cacheGen = some (s.fn x.fn.toNat).gen

/-- Run x with its cached descriptor reloaded where its generation differs. -/
def State.reloadCache (s : State) (x : Run) : Run :=
  if s.cacheCurrent x then x else { x with cache := s.descriptor x.fn.toNat, cacheGen := some (s.fn x.fn.toNat).gen }

def execSyncgen (r : RunRef) (f : LqFields) (s : State) : Host.Outcome State Fault Refusal :=
  .next (s.lq (.syncgen r f) r 0x3D f (fun _ => f.okFN) fun x =>
    if (s.fn x.fn.toNat).state = .inService then .cont (s.reloadCache x) s else .ended (s.dropToWait r x))

def execGenack (r : RunRef) (f : LqFields) (s : State) : Host.Outcome State Fault Refusal :=
  .next (s.lq (.genack r f) r 0x3E f (fun _ => f.okFN) fun x => .cont { s.reloadCache x with z := s.cacheCurrent x } s)

def execNop (r : RunRef) (f : LqFields) (s : State) : Host.Outcome State Fault Refusal :=
  .next (s.lq (.nop r f) r 0x3F f (fun _ => f.okFN) fun x => .cont x s)

end Sys2Proof.Machine
end

