-- ==== Sys2Proof/Machine/HostRows.lean ====
section
/-! DEFINITION. The commands of the host port, the global registers and the Tollgate, and of the egress port (00 R7, 10, 16, 17). -/
namespace Sys2Proof.Machine

/-! ### What the rows share -/

/-- A host write of a window word that the Tollgate has admitted. -/
def hostRow (c : Instr) (h : HpAttr) (s : State) : State := hostCmd c h s (hostBody c)

/-- A host write in the page of function fn (09 R213). -/
def pageRow (c : Instr) (h : HpAttr) (fn : BitVec 10) (s : State) : State :=
  hostCmd c h s fun s => pageAccess s h fn true (hostBody c)

/-- Where mirroring has ended, what waited for room at the partner is presented again. -/
def State.freed (old s : State) : State := if old.mirrorOn && !s.mirrorOn then s.replay else s

/-- A core step after which what waited for an access group is presented again (05 R116). -/
def coreEnd (c : Instr) (s : State) (f : State → State) : State := if s.live && c.wf then (fin s c (f s)).after else s

/-- The same for a step of the always-on domain and the PHY. -/
def portEnd (c : Instr) (s : State) (f : State → State) : State := if s.portUp && c.wf then (fin s c (f s)).after else s

/-! ### The host port (10 R237 to R248, 16 R338 to R343) -/

def execHostRequest (q : HpReq) (s : State) : Host.Outcome State Fault Refusal :=
  .next (if q.wf then s.freed (s.hostPresent q) else s)

def execHostResponseTaken (id : BitVec 6) (s : State) : Host.Outcome State Fault Refusal :=
  .next (s.freed (s.responseTaken id))

/-- The command that an 8-byte write at an offset is, the snapshot window's words among them. -/
def rowCmd (h : HpAttr) (off : BitVec 27) (v : Word) : Instr :=
  let o := off.toNat
  if 0x400000 ≤ o && o < 0x440000 && o % 8 = 0 then .snapshotWindowWrite h (BitVec.ofNat 18 (o - 0x400000)) v
  else writeCmd h o v

/-- The 8-byte write of v at an offset as the port sees it. -/
def rowReq (h : HpAttr) (off : Nat) (v : Word) : HpReq := ⟨h, BitVec.ofNat 27 off, 8, true, [v], [0xFF]⟩

/-- A write in the Tollgate's own window, which only the keeper path reaches (10 R237, Table 10-1 row 3). -/
def tollRow (c : Instr) (h : HpAttr) (off : Nat) (v : Word) (s : State) : State :=
  if keeper h then hostAccess c h false s (hostBody c)
  else hostEntry c h false s fun t => finNow t (t.violate (rowReq h off v) 3)

/-- A write of any register by its offset (00 R7). -/
def State.registerWrite (s : State) (h : HpAttr) (off : BitVec 27) (v : Word) : State :=
  let o := off.toNat
  let c := rowCmd h off v
  let glb : Bool := o < 0x100 || o = 0x40000 || o = 0x40008
  if 0x10000 ≤ o && o < 0x20000 then tollRow c h o v s
  else hostAccess c h glb s fun s =>
    match pageOf o with
    | some (f, _) => pageAccess s h (BitVec.ofNat 10 f) true (hostBody c)
    | none => hostBody c s

def execRegisterWrite (h : HpAttr) (off : BitVec 27) (v : Word) (s : State) : Host.Outcome State Fault Refusal :=
  .next (s.freed (s.registerWrite h off v))

def execGlbBlockIndexWrite (h : HpAttr) (index : BitVec 2) (s : State) : Host.Outcome State Fault Refusal :=
  .next (hostAccess (.glbBlockIndexWrite h index) h true s (hostBody (.glbBlockIndexWrite h index)))

def execDispatchHoldWrite (h : HpAttr) (hold : Bool) (s : State) : Host.Outcome State Fault Refusal :=
  .next (hostAccess (.dispatchHoldWrite h hold) h true s (hostBody (.dispatchHoldWrite h hold)))

def execPortCountClear (h : HpAttr) (s : State) : Host.Outcome State Fault Refusal :=
  .next (hostRow (.portCountClear h) h s)

/-! ### The Tollgate (10 R242 to R247) -/

def execClose (h : HpAttr) (s : State) : Host.Outcome State Fault Refusal :=
  .next (tollRow (.close h) h 0x10000 1 s)

def execReopen (h : HpAttr) (s : State) : Host.Outcome State Fault Refusal :=
  .next (tollRow (.reopen h) h 0x10000 2 s)

def execReopenCheckComplete (s : State) : Host.Outcome State Fault Refusal :=
  .next (if s.live then s.freed (s.reopenEnd .reopenCheckComplete) else s)

def execTollRegionWrite (h : HpAttr) (n : BitVec 7) (v : Word) (s : State) : Host.Outcome State Fault Refusal :=
  .next (tollRow (.tollRegionWrite h n v) h (0x10400 + 8 * n.toNat) v s)

/-! ### The egress port (16 R344 to R347), whose signals are clamped while PD_HOST has no power (14 R309, 16 R336) -/

def execEgressWriteIssue (id : BitVec 5) (s : State) : Host.Outcome State Fault Refusal :=
  .next (portEnd (.egressWriteIssue id) s fun s => if s.powered 20 then (s.egressTake id).egressEnds else s)

def execEgressResponse (id : BitVec 5) (code : BitVec 2) (s : State) : Host.Outcome State Fault Refusal :=
  .next (portCmd (.egressResponse id code) s fun s => if s.powered 20 then s.egressAnswer id code else s)

end Sys2Proof.Machine
end

