-- ==== Sys2Proof/Machine/IngressRows.lean ====
section
/-! DEFINITION. The commands of message ingress, the wired front end and the lodging window (02, 08 R198 to R201, 16 R350). -/
namespace Sys2Proof.Machine

/-! ### Doorbells, fences and two-key releases (02 R25 to R28, 04 R97, 08 R201) -/

def execDoorbellPost (h : HpAttr) (fn : BitVec 10) (d : Doorbell) (s : State) : Host.Outcome State Fault Refusal :=
  .next (pageRow (.doorbellPost h fn d) h fn s)

def execDoorbellPostKeep (h : HpAttr) (fn : BitVec 10) (d : Doorbell) (s : State) : Host.Outcome State Fault Refusal :=
  .next (pageRow (.doorbellPostKeep h fn d) h fn s)

def execDoorbellCancel (h : HpAttr) (fn : BitVec 10) (d : Doorbell) (s : State) : Host.Outcome State Fault Refusal :=
  .next (pageRow (.doorbellCancel h fn d) h fn s)

def execDoorbellMask (h : HpAttr) (fn : BitVec 10) (d : Doorbell) (s : State) : Host.Outcome State Fault Refusal :=
  .next (pageRow (.doorbellMask h fn d) h fn s)

def execDoorbellUnmask (h : HpAttr) (fn : BitVec 10) (d : Doorbell) (s : State) : Host.Outcome State Fault Refusal :=
  .next (pageRow (.doorbellUnmask h fn d) h fn s)

def execFenceDoorbell (h : HpAttr) (fn : BitVec 10) (v : Word) (s : State) : Host.Outcome State Fault Refusal :=
  .next (pageRow (.fenceDoorbell h fn v) h fn s)

def execHeldFenceRelease (fn : BitVec 10) (s : State) : Host.Outcome State Fault Refusal :=
  .next (coreCmd (.heldFenceRelease fn) s fun s => match s.fenceReady fn with | some k => s.releaseFence k | none => s)

def execTwoKeyRelease (h : HpAttr) (fn : BitVec 10) (v : Word) (s : State) : Host.Outcome State Fault Refusal :=
  .next (pageRow (.twoKeyRelease h fn v) h fn s)

/-! ### Engine channels (02 R29, R30, 16 R350) -/

/-- An engine drives a record and raises its request: it is presented, or held while the block is down or starting. -/
def State.engineRecord (s : State) (ch : BitVec 4) (v : Word) : State :=
  let x := s.chan ch.toNat
  if x.req || x.ack || x.held.isSome then s
  else
    let t := s.modChan ch.toNat fun x => { x with req := true, held := some v }
    if t.live then fin t (.engineRecord ch v) (t.engPresent ch v true) else t.latchRecord ch v

def execEngineRecord (ch : BitVec 4) (rec : Word) (s : State) : Host.Outcome State Fault Refusal :=
  .next (s.engineRecord ch rec)

def execEngineRecordRetry (ch : BitVec 4) (s : State) : Host.Outcome State Fault Refusal :=
  .next (coreCmd (.engineRecordRetry ch) s fun s =>
    match (s.chan ch.toNat).held with | some v => s.engPresent ch v false | none => s)

/-- The engine lowers its request once it has seen the acknowledge; the block lowers the acknowledge. -/
def execEngReqFall (ch : BitVec 4) (s : State) : Host.Outcome State Fault Refusal :=
  .next (let x := s.chan ch.toNat
         if x.ack || x.held.isNone then s.modChan ch.toNat fun x => { x with req := false, ack := false }
         else s)

/-! ### Wired lines and internal sources (02 R21 to R23, R31) -/

/-- The input of line n takes a level: sampled, watched by the night porter while the block is down or starting, or nothing more
while it is in reset or ZEROISE. A post that waits is kept in the line's latch. -/
def State.wireTransition (s : State) (n : Nat) (level : Bool) : State :=
  let was := s.lineActive n
  let t := { s with wf.inputs := setBit s.wf.inputs n level }
  if !t.portUp then t
  else if !t.live then t.latchLine n was
  else fin (if t.wirePosts n was then t.wireLatch n else t) (.wireTransition (BitVec.ofNat 10 n) level) (t.wireEdge n was)

def execWireTransition (line : BitVec 10) (level : Bool) (s : State) : Host.Outcome State Fault Refusal :=
  .next (s.wireTransition line.toNat level)

def execWiredLatchRepost (line : BitVec 10) (s : State) : Host.Outcome State Fault Refusal :=
  .next (coreCmd (.wiredLatchRepost line) s fun s =>
    if bit s.wf.pend line.toNat && !s.busy (0x40 + line.toNat) then s.wirePost line.toNat else s)

def execInternalPendingRepost (src : BitVec 6) (s : State) : Host.Outcome State Fault Refusal :=
  .next (coreCmd (.internalPendingRepost src) s fun s => s.pendingRepost src.toNat)

/-! ### The lodging window (02 R44) -/

def execLodgingWindowWord1Write (h : HpAttr) (ev : BitVec 17) (v : Word) (s : State) : Host.Outcome State Fault Refusal :=
  .next (hostRow (.lodgingWindowWord1Write h ev v) h s)

def execLodgingWindowWord0Write (h : HpAttr) (ev : BitVec 17) (v : Word) (s : State) : Host.Outcome State Fault Refusal :=
  .next (hostRow (.lodgingWindowWord0Write h ev v) h s)

end Sys2Proof.Machine
end

