-- ==== Sys2Proof/Machine/TargetRows.lean ====
section
/-! DEFINITION. The commands of the ranking network, the delivery unit, the ledger and the curfew unit (03, 04, 08 R199, R205). -/
namespace Sys2Proof.Machine

/-! ### The ledger window (04 R101) -/

def execLedgerWindowHeldWrite (h : HpAttr) (c : W12) (w : BitVec 3) (v : Word) (s : State) : Host.Outcome State Fault Refusal :=
  .next (hostRow (.ledgerWindowHeldWrite h c w v) h s)

def execLedgerWindowWord0Write (h : HpAttr) (c : W12) (v : Word) (s : State) : Host.Outcome State Fault Refusal :=
  .next (hostRow (.ledgerWindowWord0Write h c v) h s)

/-! ### Target and group registers (03 R50 to R67) -/

def execTgtClaim (h : HpAttr) (t : BitVec 8) (s : State) : Host.Outcome State Fault Refusal :=
  .next (hostRow (.tgtClaim h t) h s)

def execTgtComplete (h : HpAttr) (t : BitVec 8) (v : Word) (s : State) : Host.Outcome State Fault Refusal :=
  .next (hostRow (.tgtComplete h t v) h s)

def execTgtThresholdWrite (h : HpAttr) (t : BitVec 8) (v : Word) (s : State) : Host.Outcome State Fault Refusal :=
  .next (hostRow (.tgtThresholdWrite h t v) h s)

def execTgtCfgWrite (h : HpAttr) (t : BitVec 8) (v : Word) (s : State) : Host.Outcome State Fault Refusal :=
  .next (hostRow (.tgtCfgWrite h t v) h s)

def execRnkGrpCfgWrite (h : HpAttr) (g : BitVec 8) (v : Word) (s : State) : Host.Outcome State Fault Refusal :=
  .next (hostRow (.rnkGrpCfgWrite h g v) h s)

def execRnkGrpMaskWrite (h : HpAttr) (g : BitVec 8) (k : BitVec 2) (v : Word) (s : State) : Host.Outcome State Fault Refusal :=
  .next (hostRow (.rnkGrpMaskWrite h g k v) h s)

/-! ### Held placements and timeouts (03 R68 to R73, 08 R199) -/

def execHeldPlacementRelease (ev : BitVec 17) (s : State) : Host.Outcome State Fault Refusal :=
  .next (coreCmd (.heldPlacementRelease ev) s fun s =>
    if s.placementReady ev.toNat then s.releasePlacement ev.toNat else s)

def execOfferTmoExpiry (t : BitVec 8) (s : State) : Host.Outcome State Fault Refusal :=
  .next (coreCmd (.offerTmoExpiry t) s fun s => s.offerExpiry t.toNat)

def execServiceTmoExpiry (ev : BitVec 17) (s : State) : Host.Outcome State Fault Refusal :=
  .next (coreCmd (.serviceTmoExpiry ev) s fun s => s.serviceExpiry ev.toNat)

def execTimeoutHeldRelease (service : Bool) (s : State) : Host.Outcome State Fault Refusal :=
  .next (coreCmd (.timeoutHeldRelease service) s fun s => if service then s.serviceHeldRelease else s.offerHeldRelease)

/-! ### The call list (04 R87 to R100) -/

def execBoostStep (c : W12) (s : State) : Host.Outcome State Fault Refusal :=
  .next (coreCmd (.boostStep c) s fun s => s.boostStep c.toNat)

def execDeadlineReached (c : W12) (s : State) : Host.Outcome State Fault Refusal :=
  .next (coreCmd (.deadlineReached c) s fun s => s.deadline c.toNat)

def execTwokeyWindowEnd (c : W12) (s : State) : Host.Outcome State Fault Refusal :=
  .next (coreCmd (.twokeyWindowEnd c) s fun s => s.windowFires c.toNat)

def execLedgerFiringHeldRelease (twoKey : Bool) (s : State) : Host.Outcome State Fault Refusal :=
  .next (coreCmd (.ledgerFiringHeldRelease twoKey) s fun s => if twoKey then s.keyHeldRelease else s.expHeldRelease)

/-! ### Curfew and noise (08 R205 to R209, 16 R351) -/

def execCurfewRelease (ev : BitVec 17) (s : State) : Host.Outcome State Fault Refusal :=
  .next (coreCmd (.curfewRelease ev) s fun s => s.curfewRelease ev.toNat)

def execNoiseLostClear (h : HpAttr) (s : State) : Host.Outcome State Fault Refusal :=
  .next (hostRow (.noiseLostClear h) h s)

def execRngJitterHandshake (v : BitVec 32) (s : State) : Host.Outcome State Fault Refusal :=
  .next (portCmd (.rngJitterHandshake v) s fun s => s.jitter v)

/-- RNG_JACK falls: the handshake ends. -/
def execRngJackFall (s : State) : Host.Outcome State Fault Refusal := .next { s with cf.jack := false }

/-- A level of the RNG port: acted on, or only seen on its pin while the block is in reset or ZEROISE. -/
def rngLevel (c : Instr) (s : State) (pin act : State → State) : State :=
  if s.portUp then fin s c (act s) else pin s

def execRngFailRise (s : State) : Host.Outcome State Fault Refusal :=
  .next (rngLevel .rngFailRise s (fun s => { s with cf.fail := true }) State.rngFailRise)

def execRngFailFall (s : State) : Host.Outcome State Fault Refusal :=
  .next (rngLevel .rngFailFall s (fun s => { s with cf.fail := false }) State.rngFailFall)

def execRngReadyRise (s : State) : Host.Outcome State Fault Refusal :=
  .next (rngLevel .rngReadyRise s (fun s => { s with cf.ready := true }) State.rngReadyRise)

def execRngReadyFall (s : State) : Host.Outcome State Fault Refusal :=
  .next (rngLevel .rngReadyFall s (fun s => { s with cf.ready := false }) State.rngReadyFall)

end Sys2Proof.Machine
end

