-- ==== Sys2Proof/Machine/PorterRows.lean ====
section
/-! DEFINITION. The commands of the Porter array, the bank arbiters and the itinerary store (05). -/
namespace Sys2Proof.Machine

/-! ### Dispatch and runs (05 R103 to R112) -/

def execRunQueueTake (k : BitVec 4) (s : State) : Host.Outcome State Fault Refusal :=
  .next (coreCmd (.runQueueTake k) s fun s => s.take k.toNat)

def execDispatchRead (r : RunRef) (s : State) : Host.Outcome State Fault Refusal :=
  .next (coreEnd (.dispatchRead r) s fun s => s.dispatch r)

def execWorkSteal (r : RunRef) (s : State) : Host.Outcome State Fault Refusal :=
  .next (coreCmd (.workSteal r) s fun s => s.workSteal r)

/-! ### The bank arbiters (05 R128 to R133) -/

def execArbGrant (a : BitVec 6) (reqs : List ArbReq) (s : State) : Host.Outcome State Fault Refusal :=
  .next (coreCmd (.arbGrant a reqs) s fun s => s.arbGrant a.toNat reqs)

def execContextReturn (k : BitVec 4) (p : BitVec 3) (s : State) : Host.Outcome State Fault Refusal :=
  .next (coreCmd (.contextReturn k p) s fun s => s.contextReturn k.toNat p.toNat)

def execHoldMaxExpiry (a : BitVec 6) (s : State) : Host.Outcome State Fault Refusal :=
  .next (coreCmd (.holdMaxExpiry a) s fun s => s.cutoff a.toNat)

def execStarveLimitExpiry (a : BitVec 6) (slot : BitVec 5) (s : State) : Host.Outcome State Fault Refusal :=
  .next (coreCmd (.starveLimitExpiry a slot) s fun s => s.starveExpiry a.toNat slot.toNat)

def execArbCfgWrite (h : HpAttr) (v : Word) (s : State) : Host.Outcome State Fault Refusal :=
  .next (hostRow (.arbCfgWrite h v) h s)

/-! ### Commits and failures (05 R113 to R118) -/

def execCommitPhaseB (r : RunRef) (s : State) : Host.Outcome State Fault Refusal :=
  .next (coreEnd (.commitPhaseB r) s fun s => s.commitB r)

def execSerialTokenGrant (s : State) : Host.Outcome State Fault Refusal :=
  .next (coreEnd .serialTokenGrant s State.tokenGrant)

/-- The run of context r waits no more for function f's runs (07 R189). -/
def execFwaitResume (r : RunRef) (s : State) : Host.Outcome State Fault Refusal :=
  .next (coreEnd (.fwaitResume r) s fun s => s.fwaitResume r)

/-- The cause that PORTER_SPARED names (13 Table 13-3). -/
def checkCause : CheckKind → Nat
  | .decode => 0
  | .residue => 1
  | .parity => 1

def execPorterCheckFail (k : BitVec 4) (p : BitVec 3) (kind : CheckKind) (s : State) : Host.Outcome State Fault Refusal :=
  .next (coreEnd (.porterCheckFail k p kind) s fun s => s.porterFail k.toNat p.toNat (checkCause kind))

def execPorterWatchdogExpiry (k : BitVec 4) (p : BitVec 3) (s : State) : Host.Outcome State Fault Refusal :=
  .next (coreEnd (.porterWatchdogExpiry k p) s fun s =>
    if s.watchdogDue k.toNat p.toNat then s.porterFail k.toNat p.toNat 2 else s)

/-! ### Pace and the trap entries (05 R123, R134) -/

def execPaceWindowEnd (steps : W12) (s : State) : Host.Outcome State Fault Refusal :=
  .next (if s.portUp && s.awake && s.gl.tbSeen then s.paceEnd steps else s)

def execPaceRestart (h : HpAttr) (s : State) : Host.Outcome State Fault Refusal :=
  .next (hostRow (.paceRestart h) h s)

def execSelfTrapClear (h : HpAttr) (s : State) : Host.Outcome State Fault Refusal :=
  .next (hostRow (.selfTrapClear h) h s)

/-! ### The itinerary store (05 R124 to R127) -/

def execItStoreWrite (h : HpAttr) (i : W12) (v : Word) (s : State) : Host.Outcome State Fault Refusal :=
  .next (hostRow (.itStoreWrite h i v) h s)

def execSeal (h : HpAttr) (s : State) : Host.Outcome State Fault Refusal :=
  .next (hostRow (.seal h) h s)

def execSealComplete (s : State) : Host.Outcome State Fault Refusal :=
  .next (coreCmd .sealComplete s fun s => s.sealEnd)

def execStoreScrub (copy : BitVec 4) (i : W12) (uncorrectable : Bool) (s : State) : Host.Outcome State Fault Refusal :=
  .next (coreCmd (.storeScrub copy i uncorrectable) s fun s => s.storeScrub copy.toNat i.toNat uncorrectable)

def execStoreReloadComplete (copy : BitVec 4) (s : State) : Host.Outcome State Fault Refusal :=
  .next (coreEnd (.storeReloadComplete copy) s fun s => s.reloadDone copy.toNat)

end Sys2Proof.Machine
end

