-- ==== Sys2Proof/Machine/FunctionRows.lean ====
section
/-! DEFINITION. The commands of the function manager, migration, notification queues and vectors (09). -/
namespace Sys2Proof.Machine

def execCreate (h : HpAttr) (fn : BitVec 10) (s : State) : Host.Outcome State Fault Refusal :=
  .next (hostRow (.create h fn) h s)

def execModify (h : HpAttr) (fn : BitVec 10) (s : State) : Host.Outcome State Fault Refusal :=
  .next (hostRow (.modify h fn) h s)

def execDestroy (h : HpAttr) (fn : BitVec 10) (s : State) : Host.Outcome State Fault Refusal :=
  .next (hostRow (.destroy h fn) h s)

def execFlr (h : HpAttr) (fn : BitVec 10) (s : State) : Host.Outcome State Fault Refusal :=
  .next (hostRow (.flr h fn) h s)

def execFreeze (h : HpAttr) (fn : BitVec 10) (s : State) : Host.Outcome State Fault Refusal :=
  .next (hostRow (.freeze h fn) h s)

def execThaw (h : HpAttr) (fn : BitVec 10) (s : State) : Host.Outcome State Fault Refusal :=
  .next (hostRow (.thaw h fn) h s)

def execSave (h : HpAttr) (fn : BitVec 10) (s : State) : Host.Outcome State Fault Refusal :=
  .next (hostRow (.save h fn) h s)

def execRestore (h : HpAttr) (fn : BitVec 10) (s : State) : Host.Outcome State Fault Refusal :=
  .next (hostRow (.restore h fn) h s)

def execAbort (h : HpAttr) (fn : BitVec 10) (s : State) : Host.Outcome State Fault Refusal :=
  .next (hostRow (.abort h fn) h s)

def execNext (h : HpAttr) (fn : BitVec 10) (length : BitVec 19) (s : State) : Host.Outcome State Fault Refusal :=
  .next (hostRow (.next h fn length) h s)

def execFlrDrainComplete (fn : BitVec 10) (s : State) : Host.Outcome State Fault Refusal :=
  .next (coreEnd (.flrDrainComplete fn) s fun s => s.flrEnd fn.toNat)

def execDestroyDrainComplete (fn : BitVec 10) (s : State) : Host.Outcome State Fault Refusal :=
  .next (coreEnd (.destroyDrainComplete fn) s fun s => s.destroyEnd fn.toNat)

/-! ### Migration (09 R230, R235) -/

def execSaveSegmentReady (s : State) : Host.Outcome State Fault Refusal :=
  .next (coreCmd .saveSegmentReady s State.segmentReady)

def execRestoreSegmentInstalled (s : State) : Host.Outcome State Fault Refusal :=
  .next (coreCmd .restoreSegmentInstalled s State.segmentInstalled)

def execSnapshotWindowWrite (h : HpAttr) (off : BitVec 18) (v : Word) (s : State) : Host.Outcome State Fault Refusal :=
  .next (hostRow (.snapshotWindowWrite h off v) h s)

/-! ### Function pages (09 R222 to R225) -/

def execMsixCtlWrite (h : HpAttr) (fn : BitVec 10) (v : Word) (s : State) : Host.Outcome State Fault Refusal :=
  .next (pageRow (.msixCtlWrite h fn v) h fn s)

def execMsixTableWrite (h : HpAttr) (fn : BitVec 10) (vec : BitVec 11) (high : Bool) (v : Word) (s : State) :
    Host.Outcome State Fault Refusal :=
  .next (pageRow (.msixTableWrite h fn vec high v) h fn s)

def execNqConsWrite (h : HpAttr) (fn : BitVec 10) (q : BitVec 9) (v : Word) (s : State) : Host.Outcome State Fault Refusal :=
  .next (pageRow (.nqConsWrite h fn q v) h fn s)

def execNqBaseWrite (h : HpAttr) (fn : BitVec 10) (q : BitVec 9) (v : Word) (s : State) : Host.Outcome State Fault Refusal :=
  .next (pageRow (.nqBaseWrite h fn q v) h fn s)

def execNqCfgWrite (h : HpAttr) (fn : BitVec 10) (q : BitVec 9) (v : Word) (s : State) : Host.Outcome State Fault Refusal :=
  .next (pageRow (.nqCfgWrite h fn q v) h fn s)

end Sys2Proof.Machine
end

