-- ==== Sys2Proof/Machine/CourierRows.lean ====
section
/-! DEFINITION. The commands of the Courier links, remote delivery and pair mode (11, 12). -/
namespace Sys2Proof.Machine

/-! ### Flits and lanes (11 R250 to R265) -/

def execFlitSend (port : BitVec 2) (s : State) : Host.Outcome State Fault Refusal :=
  .next (portCmd (.flitSend port) s fun s => s.flitSend port.toNat)

/-- A flit time's symbols arrive: each slot of the flit is a change of its own. -/
def execFlitReceive (port : BitVec 2) (lines : List (List Pam4)) (s : State) : Host.Outcome State Fault Refusal :=
  .next (if s.portUp && (Instr.flitReceive port lines).wf then (s.flitReceived port.toNat lines).after else s)

def execAckTimerExpiry (port : BitVec 2) (s : State) : Host.Outcome State Fault Refusal :=
  .next (portEnd (.ackTimerExpiry port) s fun s => s.ackTimer port.toNat)

def execLaneWindowEnd (port : BitVec 2) (s : State) : Host.Outcome State Fault Refusal :=
  .next (portCmd (.laneWindowEnd port) s fun s => s.laneWindowEnd port.toNat)

/-! ### LINK messages (11 R267, R268, R274, R276) -/

def execPropose (port : BitVec 2) (m : LinkMsg) (seq : W12) (s : State) : Host.Outcome State Fault Refusal :=
  .next (portCmd (.propose port m seq) s fun s => s.recvPropose port.toNat m seq)

def execAnswer (port : BitVec 2) (m : LinkMsg) (pseq : W12) (s : State) : Host.Outcome State Fault Refusal :=
  .next (portCmd (.answer port m pseq) s fun s => s.recvAnswer port.toNat m pseq)

def execParkReq (port : BitVec 2) (seq : W12) (s : State) : Host.Outcome State Fault Refusal :=
  .next (portCmd (.parkReq port seq) s fun s => s.recvParkReq port.toNat seq)

def execParkAck (port : BitVec 2) (pseq : W12) (s : State) : Host.Outcome State Fault Refusal :=
  .next (portCmd (.parkAck port pseq) s fun s => s.recvParkAck port.toNat pseq)

def execLinkZeroise (port : BitVec 2) (s : State) : Host.Outcome State Fault Refusal :=
  .next (portEnd (.linkZeroise port) s fun s => s.recvZeroise port.toNat)

/-! ### Training (11 R270 to R273) -/

def execTrainingBlockReceive (port : BitVec 2) (lane : BitVec 3) (blk : BitVec 128) (s : State) : Host.Outcome State Fault Refusal :=
  .next (portEnd (.trainingBlockReceive port lane blk) s fun s => s.trainingBlockReceived port.toNat lane.toNat blk)

def execPeerDetected (port : BitVec 2) (lane : BitVec 3) (s : State) : Host.Outcome State Fault Refusal :=
  .next (portCmd (.peerDetected port lane) s fun s => s.peerDetected port.toNat)

def execEqComplete (port : BitVec 2) (graded : BitVec 5) (s : State) : Host.Outcome State Fault Refusal :=
  .next (portEnd (.eqComplete port graded) s fun s => s.eqComplete port.toNat graded)

def execAlignComplete (port : BitVec 2) (s : State) : Host.Outcome State Fault Refusal :=
  .next (portEnd (.alignComplete port) s fun s => s.alignComplete port.toNat)

def execRetrainComplete (port : BitVec 2) (s : State) : Host.Outcome State Fault Refusal :=
  .next (portEnd (.retrainComplete port) s fun s => s.retrainComplete port.toNat)

def execSpareTrainingBlockSend (port : BitVec 2) (lane : BitVec 3) (s : State) : Host.Outcome State Fault Refusal :=
  .next (portCmd (.spareTrainingBlockSend port lane) s fun s => s.spareSend port.toNat lane.toNat)

def execSpareLockTimeout (port : BitVec 2) (lane : BitVec 3) (s : State) : Host.Outcome State Fault Refusal :=
  .next (portCmd (.spareLockTimeout port lane) s fun s => s.spareLost port.toNat lane.toNat)

def execFlitLockLoss (port : BitVec 2) (lane : BitVec 3) (s : State) : Host.Outcome State Fault Refusal :=
  .next (portEnd (.flitLockLoss port lane) s fun s => s.lockLost port.toNat lane.toNat)

/-! ### The side-band (11 R274, 16 R356, 14 Table 14-4) -/

def execCurWakeAssert (port : BitVec 2) (s : State) : Host.Outcome State Fault Refusal :=
  .next (portCmd (.curWakeAssert port) s fun s =>
    if s.awake then s.wakeAsserted port.toNat
    else (s.modPort port.toNat fun p => { p with wakeIn := some s.gl.time }).wake (.courier port))

def execWakeDriveTimeout (port : BitVec 2) (s : State) : Host.Outcome State Fault Refusal :=
  .next (portCmd (.wakeDriveTimeout port) s fun s => s.wakeDriveEnd port.toNat)

/-! ### Port registers (11 R277) -/

def execCurCfgWrite (h : HpAttr) (port : BitVec 2) (v : Word) (s : State) : Host.Outcome State Fault Refusal :=
  .next (s.freed (hostRow (.curCfgWrite h port v) h s))

def execCurRetrain (h : HpAttr) (port : BitVec 2) (s : State) : Host.Outcome State Fault Refusal :=
  .next (hostRow (.curRetrain h port) h s)

def execCurRemap (h : HpAttr) (port : BitVec 2) (s : State) : Host.Outcome State Fault Refusal :=
  .next (hostRow (.curRemap h port) h s)

def execCurPark (h : HpAttr) (port : BitVec 2) (s : State) : Host.Outcome State Fault Refusal :=
  .next (hostRow (.curPark h port) h s)

def execCurUnpark (h : HpAttr) (port : BitVec 2) (s : State) : Host.Outcome State Fault Refusal :=
  .next (hostRow (.curUnpark h port) h s)

/-! ### Slots of remote delivery (12 R278 to R286), each standing alone -/

def execPlace (port : BitVec 2) (room : BitVec 16) (ev : BitVec 17) (t : BitVec 8) (pri : W12) (payload : BitVec 36)
    (mask : Bool) (s : State) : Host.Outcome State Fault Refusal :=
  .next (portEnd (.place port room ev t pri payload mask) s fun s =>
    (s.received port.toNat (s.recvPlace port.toNat room.toNat ev.toNat t.toNat pri payload mask)).reqLatch port.toNat)

def execUpdate (port : BitVec 2) (room : BitVec 16) (pri : W12) (payload : BitVec 36) (ucount : BitVec 4) (mask hasPayload : Bool)
    (s : State) : Host.Outcome State Fault Refusal :=
  .next (portEnd (.update port room pri payload ucount mask hasPayload) s fun s =>
    (s.received port.toNat (s.recvUpdate port.toNat room.toNat pri payload ucount mask hasPayload)).reqLatch port.toNat)

def execRecall (port : BitVec 2) (room : BitVec 16) (s : State) : Host.Outcome State Fault Refusal :=
  .next (portEnd (.recall port room) s fun s => (s.received port.toNat (s.recvRecall port.toNat room.toNat)).reqLatch port.toNat)

def execReport (port : BitVec 2) (room : BitVec 16) (ev : BitVec 17) (state : Byte) (ucount : BitVec 4) (s : State) :
    Host.Outcome State Fault Refusal :=
  .next (portEnd (.report port room ev state ucount) s fun s =>
    (s.received port.toNat (s.recvReport port.toNat room.toNat ev.toNat state.toNat ucount)).reqLatch port.toNat)

def execGrant (port : BitVec 2) (n : BitVec 16) (s : State) : Host.Outcome State Fault Refusal :=
  .next (portEnd (.grant port n) s fun s => s.received port.toNat (some (s.recvGrant port.toNat n.toNat)))

def execReturnRooms (port : BitVec 2) (rooms : List (BitVec 16)) (s : State) : Host.Outcome State Fault Refusal :=
  .next (portEnd (.returnRooms port rooms) s fun s =>
    s.received port.toNat (some (s.recvReturn port.toNat (rooms.map BitVec.toNat))))

def execCurRoomGrantWrite (h : HpAttr) (v : Word) (s : State) : Host.Outcome State Fault Refusal :=
  .next (hostRow (.curRoomGrantWrite h v) h s)

/-! ### Pair mode (12 R287 to R292) -/

def execMirror (port : BitVec 2) (kind : Byte) (seq : BitVec 16) (item : BitVec 32) (low : Word) (data : BitVec 128) (s : State) :
    Host.Outcome State Fault Refusal :=
  .next (portEnd (.mirror port kind seq item low data) s fun s =>
    (s.received port.toNat (s.recvMirror port.toNat ⟨kind, item, low, data⟩)).reqLatch port.toNat)

def execMirrorEnd (port : BitVec 2) (seq count : BitVec 16) (s : State) : Host.Outcome State Fault Refusal :=
  .next (portEnd (.mirrorEnd port seq count) s fun s =>
    (s.received port.toNat (s.recvMirrorEnd port.toNat seq count)).reqLatch port.toNat)

def execMirrorAck (port : BitVec 2) (seq freed : BitVec 16) (s : State) : Host.Outcome State Fault Refusal :=
  .next (portEnd (.mirrorAck port seq freed) s fun s => s.received port.toNat (some (s.recvMirrorAck seq freed)))

def execPairPortWrite (h : HpAttr) (v : Word) (s : State) : Host.Outcome State Fault Refusal :=
  .next (hostRow (.pairPortWrite h v) h s)

def execPromote (h : HpAttr) (s : State) : Host.Outcome State Fault Refusal :=
  .next (s.freed (hostRow (.promote h) h s))

end Sys2Proof.Machine
end

