-- ==== Sys2Proof/Machine/PowerRows.lean ====
section
/-! DEFINITION. The commands of the error units, the time base, the night porter and the power controller (13, 14, 16 R352 to R355). -/
namespace Sys2Proof.Machine

/-! ### Scrubbers and rebuilds (13 R293 to R300) -/

/-- The arrays of the lodging, ledger and host domains, which keep power in NAP and whose scrubbers go on: entries, side words, contexts,
the call list, the expiry and two-key queues, and descriptors (01 Table 01-1, 13 Table 13-1, 14 Tables 14-1, 14-4). -/
def liveArray (arr loc : Nat) : Bool := arr = 1 || arr = 2 || arr = 4 || arr = 6 || (arr = 7 && 2 ≤ loc % 4) || arr = 0xA

/-- Array arr is checked while the block is down: a live array on the way to NAP and in it, and the night porter's own two, the save SRAM
and the doorbell wake buffer. -/
def State.scrubbedDown (s : State) (arr loc : Nat) : Bool :=
  (s.np.target = 1 && (s.np.state = .entering || s.np.state = .nap) && liveArray arr loc) ||
    (!s.awake && (arr = 0xB || arr = 0x10))

/-- An internal source has posted between old and s: its entry has changed, or its post waits on the pending bit. -/
def internalPost (old s : State) : Bool :=
  old.lt.srcPend ≠ s.lt.srcPend || (List.range 64).any fun e => old.entry e ≠ s.entry e

/-- A scrub pass of a powered array; an internal post that it makes on the way to NAP or in it wakes the block. -/
def State.scrubStep (s : State) (arr : BitVec 5) (loc : BitVec 19) (found : ScrubFind) : State :=
  if s.live then coreEnd (.scrubPass arr loc found) s fun s => s.scrubPass arr.toNat loc.toNat found
  else if s.ready && s.portUp && s.scrubbedDown arr.toNat loc.toNat && (Instr.scrubPass arr loc found).wf then
    let t := s.scrubPass arr.toNat loc.toNat found
    fin s (.scrubPass arr loc found) (if s.np.target = 1 && internalPost s t then t.wake .internal else t)
  else s

def execScrubPass (arr : BitVec 5) (loc : BitVec 19) (found : ScrubFind) (s : State) : Host.Outcome State Fault Refusal :=
  .next (s.scrubStep arr loc found)

def execSideWordRebuildComplete (ev : BitVec 17) (s : State) : Host.Outcome State Fault Refusal :=
  .next (coreEnd (.sideWordRebuildComplete ev) s fun s => s.sideRebuilt ev.toNat)

/-! ### The time base (16 R352) -/

/-- A strobe publishes v; two strobes more than 16 ns apart set TB_LATE. -/
def State.strobe (s : State) (v : Word) : State :=
  { s with
    pa.watch := s.watched v,
    gl.tbLate := s.gl.tbLate || (s.gl.tbSeen && 16 < (fld (v - s.gl.time) 0 48).toNat), gl.tbSeen := true, gl.time := v }

def execTbStrobe (v : Word) (s : State) : Host.Outcome State Fault Refusal :=
  .next (if s.portUp then s.strobe v else s)

/-! ### Power states (14) -/

def execPwrNap (h : HpAttr) (s : State) : Host.Outcome State Fault Refusal :=
  .next (hostRow (.pwrNap h) h s)

def execPwrSleep (h : HpAttr) (s : State) : Host.Outcome State Fault Refusal :=
  .next (hostRow (.pwrSleep h) h s)

def execPowerEntryPortsParked (s : State) : Host.Outcome State Fault Refusal :=
  .next (portCmd .powerEntryPortsParked s State.portsParkedEntry)

/-- NP_PSW_GOOD of domain d changes; in reset or ZEROISE the pin is seen and nothing more. -/
def execDomainPowerGood (d : BitVec 5) (good : Bool) (s : State) : Host.Outcome State Fault Refusal :=
  .next (if s.portUp then portCmd (.domainPowerGood d good) s fun s => s.domainPower d.toNat good
         else { s with np.pswGood := setBit s.np.pswGood d.toNat good })

def execNpAlarmFire (s : State) : Host.Outcome State Fault Refusal :=
  .next (portCmd .npAlarmFire s State.alarmFire)

def execWakeExit (s : State) : Host.Outcome State Fault Refusal :=
  .next (if s.portUp then s.wakeExit else s)

def execTrimIdleExpiry (k : BitVec 4) (s : State) : Host.Outcome State Fault Refusal :=
  .next (coreCmd (.trimIdleExpiry k) s fun s => s.gateCluster k.toNat)

def execPwrCfgWrite (h : HpAttr) (v : Word) (s : State) : Host.Outcome State Fault Refusal :=
  .next (hostRow (.pwrCfgWrite h v) h s)

def execPeakClr (h : HpAttr) (s : State) : Host.Outcome State Fault Refusal :=
  .next (hostRow (.peakClr h) h s)

end Sys2Proof.Machine
end

