-- ==== Sys2Proof/Machine/TestRows.lean ====
section
/-! DEFINITION. The commands of reset, start-up, ZEROISE, the test access port and the loopbacks (13 R304 to R306, 15, 16 R353, R354). -/
namespace Sys2Proof.Machine

/-! ### Reset and start-up (15 Table 15-1) -/

def execPorstNRise (s : State) : Host.Outcome State Fault Refusal := .next s.porstRise.drainUntaken

def execPorstNFall (s : State) : Host.Outcome State Fault Refusal := .next s.porstFallEvent

def execSelftestComplete (r : SelftestResult) (s : State) : Host.Outcome State Fault Refusal :=
  .next (if s.portUp then s.selftestEnd r else s)

def execKeyHandshakeComplete (seed : BitVec 128) (s : State) : Host.Outcome State Fault Refusal :=
  .next (if s.portUp then s.keyHandshake seed else s)

/-- TST_START answers before READY (15 R320). -/
def execFixedScramble (h : HpAttr) (s : State) : Host.Outcome State Fault Refusal :=
  .next (hostAccess (.fixedScramble h) h true s (hostBody (.fixedScramble h)))

def execStartupReady (s : State) : Host.Outcome State Fault Refusal :=
  .next (if s.portUp then fin s .startupReady s.startupReady else s)

/-! ### ZEROISE (13 Table 13-4) -/

def execZeroiseRise (s : State) : Host.Outcome State Fault Refusal := .next s.zeroiseRise.drainUntaken

def execZeroiseComplete (s : State) : Host.Outcome State Fault Refusal := .next s.zeroiseEnd.drainUntaken

def execZeroiseFall (s : State) : Host.Outcome State Fault Refusal := .next s.zeroiseFall.drainUntaken

/-! ### The test access port (13 R306, 15 R331) -/

def execMakerOnlyInstruction (ir : Byte) (s : State) : Host.Outcome State Fault Refusal := .next (s.makerOnly ir).drainUntaken

def execBypass (s : State) : Host.Outcome State Fault Refusal := .next (s.tapLoad .bypass [0])

def execIdcode (s : State) : Host.Outcome State Fault Refusal := .next (s.tapLoad .idcode [idcodeWord])

/-- The pins are sampled, and the cells shifted in are held for EXTEST. -/
def execSamplePreload (s : State) : Host.Outcome State Fault Refusal :=
  .next { s.tapBoundary .sample with ts.bsr := Config.boundaryScan s.free }

/-- The pins are driven from the cells that SAMPLE/PRELOAD loaded. -/
def execExtest (s : State) : Host.Outcome State Fault Refusal := .next { s.tapBoundary .extest with ts.pins := some s.ts.bsr }

def execStartRead (s : State) : Host.Outcome State Fault Refusal := .next (s.tapLoad .startRead [s.startWord, s.bistWord])

/-- The loopback registers of a port are read, or TST_LOOPn_CFG is written and both are read. -/
def State.tapLoop (s : State) (n : Nat) (wr : Option Word) : State :=
  let t := match wr with
    | some v => s.loopCfg n v
    | none => s
  t.tapLoad .loop [t.loopCfgWord n, t.loopStatusWord n]

def execLoop (port : BitVec 2) (wr : Option Word) (s : State) : Host.Outcome State Fault Refusal :=
  .next (if s.portUp then s.tapLoop port.toNat wr else s.tapLoop port.toNat none)

def execPaceRead (s : State) : Host.Outcome State Fault Refusal := .next (s.tapLoad .paceRead [s.paceWord])

/-- SELFTEST acts as a pulse of PORST_N; while PORST_N is low it adds nothing. -/
def execSelftest (s : State) : Host.Outcome State Fault Refusal :=
  .next (if s.np.porst then { s.porstFallEvent.porstRise with ts.tapIr := .selftest } else s)

/-! ### Loopbacks (15 R327 to R330) -/

def execLoopStart (h : HpAttr) (port : BitVec 2) (v : Word) (s : State) : Host.Outcome State Fault Refusal :=
  .next (hostRow (.loopStart h port v) h s)

def execLoopRespond (h : HpAttr) (port : BitVec 2) (v : Word) (s : State) : Host.Outcome State Fault Refusal :=
  .next (hostRow (.loopRespond h port v) h s)

def execLoopStop (h : HpAttr) (port : BitVec 2) (s : State) : Host.Outcome State Fault Refusal :=
  .next (hostRow (.loopStop h port) h s)

def execPrbs31BlockReceive (port : BitVec 2) (lane : BitVec 3) (blk : List Pam4) (s : State) :
    Host.Outcome State Fault Refusal :=
  .next (portCmd (.prbs31BlockReceive port lane blk) s fun s => s.prbsBlock port.toNat lane.toNat blk)

def execDloopEnWrite (h : HpAttr) (k : BitVec 1) (v : Word) (s : State) : Host.Outcome State Fault Refusal :=
  .next (hostRow (.dloopEnWrite h k v) h s)

def execDloopClaim (k : BitVec 1) (s : State) : Host.Outcome State Fault Refusal :=
  .next (coreCmd (.dloopClaim k) s fun s => s.dloopClaim k.toNat)

def execDloopComplete (k : BitVec 1) (s : State) : Host.Outcome State Fault Refusal :=
  .next (coreCmd (.dloopComplete k) s fun s => s.dloopComplete k.toNat)

end Sys2Proof.Machine
end

