-- ==== Sys2Proof/Machine/Dispatch.lean ====
section
/-! DEFINITION. The dispatch: one arm per command, each one direct call of its meaning. -/
namespace Sys2Proof.Machine

def exec (i : Instr) (s : State) : Host.Outcome State Fault Refusal :=
  match i with
  | .hostRequest q => Sys2Proof.Machine.execHostRequest q s
  | .hostResponseTaken id => Sys2Proof.Machine.execHostResponseTaken id s
  | .registerWrite h off v => Sys2Proof.Machine.execRegisterWrite h off v s
  | .doorbellPost h fn d => Sys2Proof.Machine.execDoorbellPost h fn d s
  | .doorbellPostKeep h fn d => Sys2Proof.Machine.execDoorbellPostKeep h fn d s
  | .doorbellCancel h fn d => Sys2Proof.Machine.execDoorbellCancel h fn d s
  | .doorbellMask h fn d => Sys2Proof.Machine.execDoorbellMask h fn d s
  | .doorbellUnmask h fn d => Sys2Proof.Machine.execDoorbellUnmask h fn d s
  | .fenceDoorbell h fn v => Sys2Proof.Machine.execFenceDoorbell h fn v s
  | .heldFenceRelease fn => Sys2Proof.Machine.execHeldFenceRelease fn s
  | .twoKeyRelease h fn v => Sys2Proof.Machine.execTwoKeyRelease h fn v s
  | .engineRecord ch rec => Sys2Proof.Machine.execEngineRecord ch rec s
  | .engineRecordRetry ch => Sys2Proof.Machine.execEngineRecordRetry ch s
  | .wireTransition line level => Sys2Proof.Machine.execWireTransition line level s
  | .wiredLatchRepost line => Sys2Proof.Machine.execWiredLatchRepost line s
  | .internalPendingRepost src => Sys2Proof.Machine.execInternalPendingRepost src s
  | .lodgingWindowWord1Write h ev v => Sys2Proof.Machine.execLodgingWindowWord1Write h ev v s
  | .lodgingWindowWord0Write h ev v => Sys2Proof.Machine.execLodgingWindowWord0Write h ev v s
  | .ledgerWindowHeldWrite h c w v => Sys2Proof.Machine.execLedgerWindowHeldWrite h c w v s
  | .ledgerWindowWord0Write h c v => Sys2Proof.Machine.execLedgerWindowWord0Write h c v s
  | .tgtClaim h t => Sys2Proof.Machine.execTgtClaim h t s
  | .tgtComplete h t v => Sys2Proof.Machine.execTgtComplete h t v s
  | .tgtThresholdWrite h t v => Sys2Proof.Machine.execTgtThresholdWrite h t v s
  | .tgtCfgWrite h t v => Sys2Proof.Machine.execTgtCfgWrite h t v s
  | .rnkGrpCfgWrite h g v => Sys2Proof.Machine.execRnkGrpCfgWrite h g v s
  | .rnkGrpMaskWrite h g k v => Sys2Proof.Machine.execRnkGrpMaskWrite h g k v s
  | .heldPlacementRelease ev => Sys2Proof.Machine.execHeldPlacementRelease ev s
  | .offerTmoExpiry t => Sys2Proof.Machine.execOfferTmoExpiry t s
  | .serviceTmoExpiry ev => Sys2Proof.Machine.execServiceTmoExpiry ev s
  | .timeoutHeldRelease service => Sys2Proof.Machine.execTimeoutHeldRelease service s
  | .boostStep c => Sys2Proof.Machine.execBoostStep c s
  | .deadlineReached c => Sys2Proof.Machine.execDeadlineReached c s
  | .twokeyWindowEnd c => Sys2Proof.Machine.execTwokeyWindowEnd c s
  | .ledgerFiringHeldRelease twoKey => Sys2Proof.Machine.execLedgerFiringHeldRelease twoKey s
  | .curfewRelease ev => Sys2Proof.Machine.execCurfewRelease ev s
  | .runQueueTake k => Sys2Proof.Machine.execRunQueueTake k s
  | .dispatchRead r => Sys2Proof.Machine.execDispatchRead r s
  | .workSteal r => Sys2Proof.Machine.execWorkSteal r s
  | .arbGrant a reqs => Sys2Proof.Machine.execArbGrant a reqs s
  | .contextReturn k p => Sys2Proof.Machine.execContextReturn k p s
  | .holdMaxExpiry a => Sys2Proof.Machine.execHoldMaxExpiry a s
  | .starveLimitExpiry a slot => Sys2Proof.Machine.execStarveLimitExpiry a slot s
  | .arbCfgWrite h v => Sys2Proof.Machine.execArbCfgWrite h v s
  | .commitPhaseB r => Sys2Proof.Machine.execCommitPhaseB r s
  | .serialTokenGrant => Sys2Proof.Machine.execSerialTokenGrant s
  | .porterCheckFail k p kind => Sys2Proof.Machine.execPorterCheckFail k p kind s
  | .porterWatchdogExpiry k p => Sys2Proof.Machine.execPorterWatchdogExpiry k p s
  | .paceWindowEnd steps => Sys2Proof.Machine.execPaceWindowEnd steps s
  | .paceRestart h => Sys2Proof.Machine.execPaceRestart h s
  | .selfTrapClear h => Sys2Proof.Machine.execSelfTrapClear h s
  | .itStoreWrite h n v => Sys2Proof.Machine.execItStoreWrite h n v s
  | .seal h => Sys2Proof.Machine.execSeal h s
  | .sealComplete => Sys2Proof.Machine.execSealComplete s
  | .storeScrub copy n uncorrectable => Sys2Proof.Machine.execStoreScrub copy n uncorrectable s
  | .storeReloadComplete copy => Sys2Proof.Machine.execStoreReloadComplete copy s
  | .add r f => Sys2Proof.Machine.execAdd r f s
  | .addc r f => Sys2Proof.Machine.execAddc r f s
  | .sub r f => Sys2Proof.Machine.execSub r f s
  | .subb r f => Sys2Proof.Machine.execSubb r f s
  | .and r f => Sys2Proof.Machine.execAnd r f s
  | .or r f => Sys2Proof.Machine.execOr r f s
  | .xor r f => Sys2Proof.Machine.execXor r f s
  | .andn r f => Sys2Proof.Machine.execAndn r f s
  | .shl r f => Sys2Proof.Machine.execShl r f s
  | .shr r f => Sys2Proof.Machine.execShr r f s
  | .sar r f => Sys2Proof.Machine.execSar r f s
  | .rol r f => Sys2Proof.Machine.execRol r f s
  | .min r f => Sys2Proof.Machine.execMin r f s
  | .max r f => Sys2Proof.Machine.execMax r f s
  | .cmp r f => Sys2Proof.Machine.execCmp r f s
  | .tst r f => Sys2Proof.Machine.execTst r f s
  | .mov r f => Sys2Proof.Machine.execMov r f s
  | .movi r f => Sys2Proof.Machine.execMovi r f s
  | .ldi24 r f => Sys2Proof.Machine.execLdi24 r f s
  | .movd r f => Sys2Proof.Machine.execMovd r f s
  | .rds r f => Sys2Proof.Machine.execRds r f s
  | .wrs r f => Sys2Proof.Machine.execWrs r f s
  | .sel r f => Sys2Proof.Machine.execSel r f s
  | .bitf r f => Sys2Proof.Machine.execBitf r f s
  | .br r f => Sys2Proof.Machine.execBr r f s
  | .bc r f => Sys2Proof.Machine.execBc r f s
  | .call r f => Sys2Proof.Machine.execCall r f s
  | .ret r f => Sys2Proof.Machine.execRet r f s
  | .switch r f => Sys2Proof.Machine.execSwitch r f s
  | .budget r f => Sys2Proof.Machine.execBudget r f s
  | .done r f => Sys2Proof.Machine.execDone r f s
  | .trap r f => Sys2Proof.Machine.execTrap r f s
  | .ldl r f => Sys2Proof.Machine.execLdl r f s
  | .stl r f => Sys2Proof.Machine.execStl r f s
  | .casl r f => Sys2Proof.Machine.execCasl r f s
  | .post r f => Sys2Proof.Machine.execPost r f s
  | .cancel r f => Sys2Proof.Machine.execCancel r f s
  | .coal r f => Sys2Proof.Machine.execCoal r f s
  | .park r f => Sys2Proof.Machine.execPark r f s
  | .setpri r f => Sys2Proof.Machine.execSetpri r f s
  | .ldx r f => Sys2Proof.Machine.execLdx r f s
  | .stx r f => Sys2Proof.Machine.execStx r f s
  | .join r f => Sys2Proof.Machine.execJoin r f s
  | .jadd r f => Sys2Proof.Machine.execJadd r f s
  | .dlset r f => Sys2Proof.Machine.execDlset r f s
  | .dlclr r f => Sys2Proof.Machine.execDlclr r f s
  | .keyarm r f => Sys2Proof.Machine.execKeyarm r f s
  | .keychk r f => Sys2Proof.Machine.execKeychk r f s
  | .offer r f => Sys2Proof.Machine.execOffer r f s
  | .hint r f => Sys2Proof.Machine.execHint r f s
  | .retract r f => Sys2Proof.Machine.execRetract r f s
  | .msix r f => Sys2Proof.Machine.execMsix r f s
  | .nqw r f => Sys2Proof.Machine.execNqw r f s
  | .fwd r f => Sys2Proof.Machine.execFwd r f s
  | .curf r f => Sys2Proof.Machine.execCurf r f s
  | .log r f => Sys2Proof.Machine.execLog r f s
  | .fence r f => Sys2Proof.Machine.execFence r f s
  | .fwait r f => Sys2Proof.Machine.execFwait r f s
  | .fwaitResume r => Sys2Proof.Machine.execFwaitResume r s
  | .rand r f => Sys2Proof.Machine.execRand r f s
  | .steal r f => Sys2Proof.Machine.execSteal r f s
  | .time r f => Sys2Proof.Machine.execTime r f s
  | .syncgen r f => Sys2Proof.Machine.execSyncgen r f s
  | .genack r f => Sys2Proof.Machine.execGenack r f s
  | .nop r f => Sys2Proof.Machine.execNop r f s
  | .create h fn => Sys2Proof.Machine.execCreate h fn s
  | .modify h fn => Sys2Proof.Machine.execModify h fn s
  | .destroy h fn => Sys2Proof.Machine.execDestroy h fn s
  | .flr h fn => Sys2Proof.Machine.execFlr h fn s
  | .flrDrainComplete fn => Sys2Proof.Machine.execFlrDrainComplete fn s
  | .freeze h fn => Sys2Proof.Machine.execFreeze h fn s
  | .thaw h fn => Sys2Proof.Machine.execThaw h fn s
  | .save h fn => Sys2Proof.Machine.execSave h fn s
  | .saveSegmentReady => Sys2Proof.Machine.execSaveSegmentReady s
  | .restore h fn => Sys2Proof.Machine.execRestore h fn s
  | .next h fn length => Sys2Proof.Machine.execNext h fn length s
  | .abort h fn => Sys2Proof.Machine.execAbort h fn s
  | .snapshotWindowWrite h off v => Sys2Proof.Machine.execSnapshotWindowWrite h off v s
  | .msixCtlWrite h fn v => Sys2Proof.Machine.execMsixCtlWrite h fn v s
  | .msixTableWrite h fn vec high v => Sys2Proof.Machine.execMsixTableWrite h fn vec high v s
  | .nqConsWrite h fn q v => Sys2Proof.Machine.execNqConsWrite h fn q v s
  | .nqBaseWrite h fn q v => Sys2Proof.Machine.execNqBaseWrite h fn q v s
  | .nqCfgWrite h fn q v => Sys2Proof.Machine.execNqCfgWrite h fn q v s
  | .egressWriteIssue id => Sys2Proof.Machine.execEgressWriteIssue id s
  | .egressResponse id code => Sys2Proof.Machine.execEgressResponse id code s
  | .close h => Sys2Proof.Machine.execClose h s
  | .reopen h => Sys2Proof.Machine.execReopen h s
  | .reopenCheckComplete => Sys2Proof.Machine.execReopenCheckComplete s
  | .tollRegionWrite h n v => Sys2Proof.Machine.execTollRegionWrite h n v s
  | .flitSend port => Sys2Proof.Machine.execFlitSend port s
  | .flitReceive port lines => Sys2Proof.Machine.execFlitReceive port lines s
  | .ackTimerExpiry port => Sys2Proof.Machine.execAckTimerExpiry port s
  | .laneWindowEnd port => Sys2Proof.Machine.execLaneWindowEnd port s
  | .propose port m seq => Sys2Proof.Machine.execPropose port m seq s
  | .answer port m pseq => Sys2Proof.Machine.execAnswer port m pseq s
  | .parkReq port seq => Sys2Proof.Machine.execParkReq port seq s
  | .parkAck port pseq => Sys2Proof.Machine.execParkAck port pseq s
  | .linkZeroise port => Sys2Proof.Machine.execLinkZeroise port s
  | .trainingBlockReceive port lane blk => Sys2Proof.Machine.execTrainingBlockReceive port lane blk s
  | .peerDetected port lane => Sys2Proof.Machine.execPeerDetected port lane s
  | .eqComplete port graded => Sys2Proof.Machine.execEqComplete port graded s
  | .alignComplete port => Sys2Proof.Machine.execAlignComplete port s
  | .retrainComplete port => Sys2Proof.Machine.execRetrainComplete port s
  | .spareTrainingBlockSend port lane => Sys2Proof.Machine.execSpareTrainingBlockSend port lane s
  | .spareLockTimeout port lane => Sys2Proof.Machine.execSpareLockTimeout port lane s
  | .curWakeAssert port => Sys2Proof.Machine.execCurWakeAssert port s
  | .wakeDriveTimeout port => Sys2Proof.Machine.execWakeDriveTimeout port s
  | .curCfgWrite h port v => Sys2Proof.Machine.execCurCfgWrite h port v s
  | .curRetrain h port => Sys2Proof.Machine.execCurRetrain h port s
  | .curRemap h port => Sys2Proof.Machine.execCurRemap h port s
  | .curPark h port => Sys2Proof.Machine.execCurPark h port s
  | .curUnpark h port => Sys2Proof.Machine.execCurUnpark h port s
  | .place port room ev t pri payload mask => Sys2Proof.Machine.execPlace port room ev t pri payload mask s
  | .update port room pri payload ucount mask hasPayload => Sys2Proof.Machine.execUpdate port room pri payload ucount mask hasPayload s
  | .recall port room => Sys2Proof.Machine.execRecall port room s
  | .report port room ev state ucount => Sys2Proof.Machine.execReport port room ev state ucount s
  | .mirror port kind seq item low data => Sys2Proof.Machine.execMirror port kind seq item low data s
  | .mirrorEnd port seq count => Sys2Proof.Machine.execMirrorEnd port seq count s
  | .grant port n => Sys2Proof.Machine.execGrant port n s
  | .returnRooms port rooms => Sys2Proof.Machine.execReturnRooms port rooms s
  | .mirrorAck port seq freed => Sys2Proof.Machine.execMirrorAck port seq freed s
  | .curRoomGrantWrite h v => Sys2Proof.Machine.execCurRoomGrantWrite h v s
  | .pairPortWrite h v => Sys2Proof.Machine.execPairPortWrite h v s
  | .promote h => Sys2Proof.Machine.execPromote h s
  | .scrubPass arr loc found => Sys2Proof.Machine.execScrubPass arr loc found s
  | .sideWordRebuildComplete ev => Sys2Proof.Machine.execSideWordRebuildComplete ev s
  | .tbStrobe v => Sys2Proof.Machine.execTbStrobe v s
  | .rngJitterHandshake v => Sys2Proof.Machine.execRngJitterHandshake v s
  | .rngFailRise => Sys2Proof.Machine.execRngFailRise s
  | .rngFailFall => Sys2Proof.Machine.execRngFailFall s
  | .rngReadyRise => Sys2Proof.Machine.execRngReadyRise s
  | .rngReadyFall => Sys2Proof.Machine.execRngReadyFall s
  | .noiseLostClear h => Sys2Proof.Machine.execNoiseLostClear h s
  | .pwrNap h => Sys2Proof.Machine.execPwrNap h s
  | .pwrSleep h => Sys2Proof.Machine.execPwrSleep h s
  | .powerEntryPortsParked => Sys2Proof.Machine.execPowerEntryPortsParked s
  | .domainPowerGood d good => Sys2Proof.Machine.execDomainPowerGood d good s
  | .npAlarmFire => Sys2Proof.Machine.execNpAlarmFire s
  | .wakeExit => Sys2Proof.Machine.execWakeExit s
  | .trimIdleExpiry k => Sys2Proof.Machine.execTrimIdleExpiry k s
  | .pwrCfgWrite h v => Sys2Proof.Machine.execPwrCfgWrite h v s
  | .peakClr h => Sys2Proof.Machine.execPeakClr h s
  | .porstNRise => Sys2Proof.Machine.execPorstNRise s
  | .porstNFall => Sys2Proof.Machine.execPorstNFall s
  | .selftestComplete r => Sys2Proof.Machine.execSelftestComplete r s
  | .keyHandshakeComplete seed => Sys2Proof.Machine.execKeyHandshakeComplete seed s
  | .fixedScramble h => Sys2Proof.Machine.execFixedScramble h s
  | .startupReady => Sys2Proof.Machine.execStartupReady s
  | .zeroiseRise => Sys2Proof.Machine.execZeroiseRise s
  | .zeroiseComplete => Sys2Proof.Machine.execZeroiseComplete s
  | .zeroiseFall => Sys2Proof.Machine.execZeroiseFall s
  | .makerOnlyInstruction ir => Sys2Proof.Machine.execMakerOnlyInstruction ir s
  | .bypass => Sys2Proof.Machine.execBypass s
  | .idcode => Sys2Proof.Machine.execIdcode s
  | .samplePreload => Sys2Proof.Machine.execSamplePreload s
  | .extest => Sys2Proof.Machine.execExtest s
  | .startRead => Sys2Proof.Machine.execStartRead s
  | .loop port wr => Sys2Proof.Machine.execLoop port wr s
  | .paceRead => Sys2Proof.Machine.execPaceRead s
  | .selftest => Sys2Proof.Machine.execSelftest s
  | .loopStart h port v => Sys2Proof.Machine.execLoopStart h port v s
  | .loopRespond h port v => Sys2Proof.Machine.execLoopRespond h port v s
  | .loopStop h port => Sys2Proof.Machine.execLoopStop h port s
  | .dloopEnWrite h k v => Sys2Proof.Machine.execDloopEnWrite h k v s
  | .dloopClaim k => Sys2Proof.Machine.execDloopClaim k s
  | .dloopComplete k => Sys2Proof.Machine.execDloopComplete k s
  | .dispatchHoldWrite h hold => Sys2Proof.Machine.execDispatchHoldWrite h hold s
  | .glbBlockIndexWrite h index => Sys2Proof.Machine.execGlbBlockIndexWrite h index s
  | .portCountClear h => Sys2Proof.Machine.execPortCountClear h s
  | .flitLockLoss port lane => Sys2Proof.Machine.execFlitLockLoss port lane s
  | .engReqFall ch => Sys2Proof.Machine.execEngReqFall ch s
  | .rngJackFall => Sys2Proof.Machine.execRngJackFall s
  | .prbs31BlockReceive port lane blk => Sys2Proof.Machine.execPrbs31BlockReceive port lane blk s
  | .restoreSegmentInstalled => Sys2Proof.Machine.execRestoreSegmentInstalled s
  | .destroyDrainComplete fn => Sys2Proof.Machine.execDestroyDrainComplete fn s

end Sys2Proof.Machine
end

