-- ==== Sys2Proof/Safety.lean ====
section
/-! DEFINITION. The terms in which statements about the block are made: the canonical form of its tables, the conditions under which
a command takes its plain effect, what a change of a lodging entry leaves alone, and the effect of a Lequin instruction. -/
namespace Sys2Proof.Machine

/-! ### Invariants -/

/-- Every array of State is in the canonical form of sparse tables: keys strictly rising, no value equal to what an unlisted key
reads as. -/
structure State.Canonical (s : State) : Prop where
  entries    : twf {} s.lt.entries = true
  word1      : twf none s.lt.word1 = true
  side       : twf {} s.lt.side = true
  dispatch   : twf [] s.lt.dispatch = true
  srcPend    : twf none s.lt.srcPend = true
  chCfg      : twf {} s.mi.chCfg = true
  channels   : twf {} s.mi.channels = true
  ctxs       : twf {} s.lg.ctxs = true
  held       : twf none s.lg.held = true
  locks      : twf none s.lg.locks = true
  waits      : twf false s.lg.waits = true
  keywin     : twf 0 s.lg.keywin = true
  curves     : twf {} s.lg.curves = true
  porters    : twf {} s.pa.porters = true
  runs       : twf none s.pa.runs = true
  watch      : twf none s.pa.watch = true
  queues     : twf {} s.pa.queues = true
  words      : twf 0 s.st.words = true
  own        : twf none s.st.own = true
  reloadSrc  : twf 0 s.st.reloadSrc = true
  pri        : twf 0x555555555555 s.ab.pri = true
  ranks      : twf (List.range 24) s.ab.ranks = true
  holds      : twf none s.ab.holds = true
  targets    : twf {} s.rn.targets = true
  groups     : twf {} s.rn.groups = true
  orders     : twf 0 s.rn.orders = true
  visitors   : twf none s.rn.visitors = true
  classes    : twf {} s.cf.classes = true
  fns        : twf {} s.fm.fns = true
  regions    : twf {} s.tg.regions = true
  ports      : twf {} s.cu.ports = true
  peers      : twf {} s.cu.peers = true
  shEntries  : twf {} s.cu.shEntries = true
  shCtxs     : twf {} s.cu.shCtxs = true
  shFns      : twf {} s.cu.shFns = true
  idleSince  : twf none s.np.idleSince = true
  loops      : twf {} s.ts.loops = true
  dloops     : twf {} s.ts.dloops = true
  ranges     : twf {} s.gb.ranges = true
  buffer     : twf 0 s.gb.buffer = true
  scratch    : twf 0 s.gl.scratch = true

end Sys2Proof.Machine

/-- The commands that end what the block held: PORST_N falling, the end of a ZEROISE, SELFTEST, and the exit that may find saved
registers lost (15 R320, 13 R304, 14 R317). -/
def Sys2Proof.Instr.clears : Instr → Bool
  | .porstNFall => true
  | .zeroiseComplete => true
  | .selftest => true
  | .wakeExit => true
  | _ => false

namespace Sys2Proof.Machine

/-! ### When a command takes its plain effect -/

/-- Nothing waits for an access group to end: no command, no target's offer, no run of a failed Porter (05 R113, R116), and no entry waits
for a room at a peer (12 R282). -/
structure State.NoneWaits (s : State) : Prop where
  blocked : s.blocked = []
  settled : s.rn.unsettled = []
  homed   : s.pa.stranded = []
  roomed  : ∀ b, (s.peer b).waiting = []

/-- Nothing else follows a change: no function's QUIET is under watch (09 R229), no GAP record owes its post (15 R334), no migration
notes changes (09 R231), no partner receives them (12 R288), and nothing waits for an access group. -/
structure State.Calm (s : State) : Prop extends s.NoneWaits where
  still   : s.stillFns = []
  gap     : s.gb.gapDue = none
  mig     : s.fm.mig = none
  pair    : s.mirrorOn = false

/-- The host's access under attributes h is taken and let in: the core runs (15 R320, 14 Table 14-1), PORST_N is high, and the host
port holds or has a slot for it (16 R339). -/
structure State.LetIn (s : State) (h : HpAttr) : Prop where
  live  : s.live = true
  porst : s.np.porst = true
  room  : s.portRoom h = true

/-- Function fn's page is in service (09 Table 09-1). -/
def State.InService (s : State) (fn : BitVec 10) : Prop := fn.toNat ≤ 512 ∧ (s.fn fn.toNat).state = .inService

/-- Entry e is in no place of a target, group or peer, and no commit, restore or rebuild holds it. -/
structure State.Unplaced (s : State) (e : Nat) : Prop where
  place  : (s.side e).placed = none
  holder : (s.side e).holder = none
  room   : (s.side e).room = none
  lock   : (s.side e).lock = none
  wait   : (s.side e).wait = false

/-- The state with the access h in its slot, counted by the Tollgate (10 R244). -/
def State.seat (s : State) (h : HpAttr) : State := s.takeSlot h 0 true

/-- Context c is the one that the ledger lists: it is OPEN, no commit or restore holds it, and its function is in service (04 R89, 09 R228). -/
structure State.OnlyContext (s : State) (c : Nat) : Prop where
  only  : s.lg.ctxs.map (·.1) = [c]
  opens : (s.ctx c).state = .opened
  lock  : s.ctxLock c = none
  wait  : s.ctxWait c = false
  runs  : (s.fn (s.ctx c).owner.toNat).state = .inService

/-- Target t offers nothing and has no candidate. -/
structure State.NoCandidate (s : State) (t : Nat) : Prop where
  front   : (s.target t).front = []
  bands   : (s.target t).bands = []
  offered : (s.target t).offered = none

/-! ### What a change of an entry leaves alone -/

/-- The block without what a stimulus of an entry reaches: the lodging table, ranking, candidates' places, holds and noise, postings,
the wired front end's copies, the guest book, QUIET and DIRTY, and ports' queues. -/
def State.rest (s : State) : State :=
  { s with
    lt := { s.lt with entries := [], side := [], dispatch := [], stepTraps := [], itinTraps := [], srcPend := [] },
    wf := { s.wf with level := 0, activeLow := 0, pend := 0 },
    mi := { s.mi with postings := [] },
    rn := { s.rn with targets := [], unsettled := [], groups := [], orders := [], nextOrd := 0, displace := 0, heldPl := [], visitors := [] },
    cf := { s.cf with holds := [], nextOrd := 0, pool := [], used := 0, drawEmpty := 0 },
    fm := { s.fm with fns := [], dirty := false },
    cu := { s.cu with ports := [], peers := [] },
    er := { s.er with stimEvent := 0, stimKind := 0, stimValid := false, stimOvf := false, stimLost := 0 },
    gb := {},
    free := 0 }

/-! ### Lequin -/

/-- Run x of context r fetches the word of opcode op with fields f as its next instruction, and its step budget allows it (06 R139,
R145, R152, 05 R127). -/
structure State.Fetches (s : State) (r : RunRef) (x : Run) (op : Nat) (f : LqFields) : Prop where
  runs  : s.stepping r = some x
  good  : s.copyBad r.cluster.toNat x.pc.toNat = false
  word  : s.copyWord r.cluster.toNat x.pc.toNat = lqWord op f
  live  : lqWord op f ≠ 0
  left  : x.steps < x.budget

/-- The run with the step of its instruction counted (06 R152). -/
def Run.counted (x : Run) : Run := { x with steps := x.steps + 1 }

/-- The run past its instruction (06 R145). -/
def Run.past (x : Run) : Run := { x with pc := x.pc + 1 }

/-- Every word of opcode op that `ok` admits completes: the run takes the effect eff, counts a step and goes to the next address, and
nothing else changes. -/
def LqDoes (op : Nat) (ins : RunRef → LqFields → Instr) (ok : LqFields → Bool) (eff : LqFields → Run → Run) : Prop :=
  ∀ (s : State) (r : RunRef) (x : Run) (f : LqFields), s.Fetches r x op f → ok f = true → x.pc ≠ 0xFFF →
    exec (ins r f) s = .next (s.setRun r (some (eff f x.counted).past))

/-- The run's flags after a result v with carry c: Z, N and C (06 R147). -/
def Run.znc {w : Nat} (x : Run) (v : BitVec w) (c : Bool) : Run := { x with z := v = 0, n := v.msb, c := c }

/-- The result and C of a two-operand operation at either width. -/
abbrev AluFn := (w : Nat) → BitVec w → BitVec w → BitVec w × Bool

/-- The operands of format FA and FC: Wa and Wb or K, or with X the pairs Da and Db or K (06 Table 06-4). -/
def Run.opnds12 (x : Run) (f : LqFields) : BitVec 12 × BitVec 12 := (x.w f.a.toNat, if f.i then f.k else x.w f.b.toNat)
def Run.opnds24 (x : Run) (f : LqFields) : BitVec 24 × BitVec 24 :=
  (x.dn f.a.toNat, if f.i then f.k.setWidth 24 else x.dn f.b.toNat)

/-- The effect of a two-operand operation that writes Wd or Dd and the flags. -/
def aluEff (g : Run → AluFn) (f : LqFields) (x : Run) : Run :=
  if f.x then let r := g x 24 (x.opnds24 f).1 (x.opnds24 f).2; (x.setDn f.d.toNat r.1).znc r.1 r.2
  else let r := g x 12 (x.opnds12 f).1 (x.opnds12 f).2; (x.setW f.d.toNat r.1).znc r.1 r.2

/-- The effect of one that writes the flags alone. -/
def testEff (g : AluFn) (f : LqFields) (x : Run) : Run :=
  if f.x then let r := g 24 (x.opnds24 f).1 (x.opnds24 f).2; x.znc r.1 r.2
  else let r := g 12 (x.opnds12 f).1 (x.opnds12 f).2; x.znc r.1 r.2

/-- Item i is in the read set of run x, or its first read adds it: the run and state after, and the item as read (05 R114). -/
def State.Reads (s : State) (r : RunRef) (x : Run) (i : Item) (y : Run) (t : State) (it : ReadItem) : Prop :=
  s.readItem r x i = .got y t it

/-- Run x executes a word of opcode op that `ok` admits, not at 0xFFF, whose pair Da names entry e; reading e gives it, run y and
state t, and a further effect can be staged (07 R164 to R166). -/
structure State.OnEntry (s : State) (r : RunRef) (x : Run) (op : Nat) (ok : LqFields → Bool) (f : LqFields) (e : Nat) (y : Run)
    (t : State) (it : ReadItem) : Prop where
  fetch : s.Fetches r x op f
  ok    : ok f = true
  pc    : x.pc ≠ 0xFFF
  names : x.eventA f = some e
  reads : s.Reads r x.counted (.entry e) y t it
  room  : y.effects.length < 16

/-- The same for an instruction whose Wa names context c. -/
structure State.OnCtx (s : State) (r : RunRef) (x : Run) (op : Nat) (ok : LqFields → Bool) (f : LqFields) (c : Nat) (y : Run)
    (t : State) (it : ReadItem) : Prop where
  fetch : s.Fetches r x op f
  ok    : ok f = true
  pc    : x.pc ≠ 0xFFF
  names : c = (x.w f.a.toNat).toNat
  reads : s.Reads r x.counted (.ctx c) y t it
  room  : y.effects.length < 16

/-- Instruction i stages effect e of run y: it is the last of its segment, F is cleared, the run goes on, and but for staged views
nothing else changes. -/
def Accepts (i : Instr) (s : State) (r : RunRef) (y : Run) (t : State) (e : Effect) : Prop :=
  ∃ z : Run, exec i s = .next (t.setRun r (some z)) ∧
    z = { y.past with effects := y.effects ++ [e], f := false, reads := z.reads, stlPay := z.stlPay }

/-- Instruction i is refused: F is set, the run goes on, and nothing else changes. -/
def Refuses (i : Instr) (s : State) (r : RunRef) (y : Run) (t : State) : Prop :=
  exec i s = .next (t.setRun r (some { y.past with f := true }))

/-! ### Commands that touch no entry -/

/-- A host write of row c does eff and is answered OK, in every calm state that admits it and meets pre; nothing else changes but the
host port, which holds the access and its response. -/
def HostDoes (c : HpAttr → Instr) (pre : State → Prop) (eff : State → State) : Prop :=
  ∀ (s : State) (h : HpAttr), s.Calm → s.LetIn h → pre s → exec (c h) s = .next ((eff (s.seat h)).ok h)

/-- The same for a write of the keeper path, which alone reaches the Tollgate's window (10 R237). -/
def KeeperDoes (c : HpAttr → Instr) (pre : State → Prop) (eff : State → State) : Prop :=
  ∀ (s : State) (h : HpAttr), s.Calm → s.LetIn h → keeper h = true → pre s → exec (c h) s = .next ((eff (s.seat h)).ok h)

/-- A host write of row c is answered DENY, and does nothing else. -/
def HostDenies (c : HpAttr → Instr) (pre : State → Prop) : Prop :=
  ∀ (s : State) (h : HpAttr), s.Calm → s.LetIn h → pre s → exec (c h) s = .next ((s.seat h).deny h)

/-- A command of the clockless core does eff, and nothing else, in every calm state in which the core runs and pre holds. -/
def CoreDoes (c : Instr) (pre : State → Prop) (eff : State → State) : Prop :=
  ∀ s : State, s.Calm → s.live = true → pre s → exec c s = .next (eff s)

/-- The same for a command of the always-on domain and the PHY. -/
def LineDoes (c : Instr) (pre : State → Prop) (eff : State → State) : Prop :=
  ∀ s : State, s.Calm → s.portUp = true → pre s → exec c s = .next (eff s)

/-- The same for a command that changes port n alone, in a state of canonical tables. -/
def PortDoes (c : Instr) (n : BitVec 2) (pre : State → Port → Prop) (g : State → Port → Port) : Prop :=
  LineDoes c (fun s => s.Canonical ∧ pre s (s.port n.toNat)) fun s => s.modPort n.toNat (g s)

/-- The same for a host write. -/
def HostPortDoes (c : HpAttr → Instr) (n : BitVec 2) (pre : State → Port → Prop) (g : State → Port → Port) : Prop :=
  HostDoes c (fun s => s.Canonical ∧ pre s (s.port n.toNat)) fun s => s.modPort n.toNat (g s)

/-! ### Commands that change one entry -/

/-- The content x as a stimulus installs it in an entry that held old: VERSION is one more, RUN does not outlive POSTED, and MERGES does
not outlive the posting (02 R33, R38, 05 R106). -/
def Entry.next (old x : Entry) : Entry :=
  { x with version := old.version + 1, run := x.run && x.state = .posted, merges := if x.state = .idle then 0 else x.merges }

/-- Nothing but entry e's own change follows a stimulus that reaches it: tables are canonical, nothing else is under watch, the guest
book is off, and e is in no place, with no holder, room or lock. -/
structure State.Alone (s : State) (e : Nat) : Prop where
  canon : s.Canonical
  calm  : s.Calm
  book  : s.gb.enable = false
  free  : s.Unplaced e

/-- The table of entries of t is that of s with entry e holding what a stimulus that gives it content x installs. -/
def State.EntryTakes (s t : State) (e : Nat) (x : Entry) : Prop :=
  t.lt.entries = tset {} s.lt.entries e ((s.entry e).next x)

/-- The posting of entry e that is IDLE and not DIRECT: payload p, and HELD_CURFEW where the entry is SENSITIVE, else POSTED (02 R39). -/
def State.posting (s : State) (e : Nat) (p : BitVec 36) : Entry :=
  { s.entry e with payload := p, state := if (s.entry e).sensitive then .heldCurfew else .posted }

end Sys2Proof.Machine
end

