-- ==== Sys2Proof/Certificates/Slice0/Obligations.lean ====
section
/-! DEFINITION. The statements for the provers, each of the spec's rules named in OBLIGATIONS.json. -/

open Sys2Proof Sys2Proof.Machine

/-! ### The block as a whole -/

/-- A step takes the command at the front of the queue and carries it out on the block with the queue's rest; with no command waiting
the block idles (the idling is this model's choice: notes/assumptions/7.md). -/
def Obligations.StepCarriesOutTheFrontCommand : Prop :=
  (∀ (c : Instr) (l : List Instr) (s : State), s.pending = c :: l → step s = exec c { s with pending := l }) ∧
  (∀ s : State, s.pending = [] → step s = .next s)

/-- No command stops the block, and none but the step itself touches the queue: for every command and state, exec answers a next state
whose queue is the queue before. That a command which cannot occur
changes nothing is this model's choice (notes/assumptions/1.md). -/
def Obligations.EveryCommandAnswersAndKeepsTheQueue : Prop :=
  ∀ (c : Instr) (s : State), ∃ t, exec c s = .next t ∧ t.pending = s.pending

/-- While PORST_N is low: no function in service, the gate open with no region valid, the store unsealed, no Porter, no link, no power,
the start-up phase RESET, and the registers whose field tables give a value other than 0 at that value.
That the state before anything happens is the one
under a low PORST_N is this model's choice (notes/assumptions/5.md). -/
def Obligations.ResetRegisters : Prop :=
  State.reset.ts.phase = .reset ∧ State.reset.np.porst = false ∧ State.reset.ready = false ∧
  State.reset.gl.stepmax = 0x100 ∧ State.reset.pa.stealMin = 2 ∧ State.reset.pa.switchTurn = 4 ∧ State.reset.pa.watchdog = 0x040 ∧
  State.reset.ab.holdMax = 0x080 ∧ State.reset.ab.starveNs = 0x0FA0 ∧ (∀ a, State.reset.levels a = 0x555555555555) ∧
  (∀ n, (State.reset.chCfg n).enable = true ∧ (State.reset.chCfg n).sens = true) ∧
  (∀ n, (State.reset.port n).maxWidth = 4 ∧ (State.reset.port n).autoRetry = true ∧ (State.reset.port n).ackTmo = 0x00FA ∧
    (State.reset.port n).state = .off) ∧
  (∀ f, (State.reset.fn f).state = .absent) ∧ (∀ e, State.reset.entry e = {}) ∧ (∀ c, State.reset.ctx c = {}) ∧
  (∀ i, State.reset.storeWord i = 0) ∧ State.reset.st.sealed = false ∧ State.reset.tg.gate = .opened ∧
  (∀ n, (State.reset.region n).valid = false) ∧ State.reset.np.trimRet = true ∧ State.reset.np.trimMin = 4 ∧
  State.reset.np.trimIdle = 0x040 ∧ State.reset.np.trimWake = 8 ∧ (∀ n, (State.reset.loopb n).lanes = 0x1F) ∧
  (∀ c, (State.reset.crfClass c).qlog = 4)

/-- Every array of the reset state is in canonical form. -/
def Obligations.ResetIsCanonical : Prop := State.reset.Canonical

/-- Every command keeps every array in canonical form, so equal arrays are equal data in every state that a run reaches. -/
def Obligations.EveryCommandKeepsTablesCanonical : Prop :=
  ∀ (c : Instr) (s t : State), s.Canonical → exec c s = .next t → t.Canonical

/-- Once the itinerary store is sealed, no command changes a word of it or unseals it, but those that end what the block held. -/
def Obligations.SealedStoreNeverChanges : Prop :=
  ∀ (c : Instr) (s t : State), s.st.sealed = true → c.clears = false → exec c s = .next t →
    t.st.words = s.st.words ∧ t.st.sealed = true

/-! ### Lequin: arithmetic, moves, control (06) -/

/-- ADD, ADDC, SUB and SUBB, at 12 bits and as pairs at 24, with the flags Z, N and the carry or borrow C; CMP subtracts for the flags
alone. -/
def Obligations.LequinAddSubtract : Prop :=
  LqDoes 0x00 .add LqFields.okFA (aluEff fun _ w a b => (a + b, decide (2 ^ w ≤ a.toNat + b.toNat))) ∧
  LqDoes 0x01 .addc LqFields.okFA (aluEff fun x w a b =>
    (a + b + (BitVec.ofBool x.c).setWidth w, decide (2 ^ w ≤ a.toNat + b.toNat + x.c.toNat))) ∧
  LqDoes 0x02 .sub LqFields.okFA (aluEff fun _ _ a b => (a - b, decide (a.toNat < b.toNat))) ∧
  LqDoes 0x03 .subb LqFields.okFA (aluEff fun x w a b =>
    (a - b - (BitVec.ofBool x.c).setWidth w, decide (a.toNat < b.toNat + x.c.toNat))) ∧
  LqDoes 0x0E .cmp LqFields.okFC (testEff fun _ a b => (a - b, decide (a.toNat < b.toNat)))

/-- AND, OR, XOR and ANDN clear C; TST ands for the flags alone; MIN and MAX take b and set C where b is the lesser or the greater. -/
def Obligations.LequinLogicAndSelection : Prop :=
  LqDoes 0x04 .and LqFields.okFA (aluEff fun _ _ a b => (a &&& b, false)) ∧
  LqDoes 0x05 .or LqFields.okFA (aluEff fun _ _ a b => (a ||| b, false)) ∧
  LqDoes 0x06 .xor LqFields.okFA (aluEff fun _ _ a b => (a ^^^ b, false)) ∧
  LqDoes 0x07 .andn LqFields.okFA (aluEff fun _ _ a b => (a &&& ~~~b, false)) ∧
  LqDoes 0x0F .tst LqFields.okFC (testEff fun _ a b => (a &&& b, false)) ∧
  LqDoes 0x0C .min LqFields.okFA (aluEff fun _ _ a b => (if b.toNat < a.toNat then b else a, decide (b.toNat < a.toNat))) ∧
  LqDoes 0x0D .max LqFields.okFA (aluEff fun _ _ a b => (if a.toNat < b.toNat then b else a, decide (a.toNat < b.toNat)))

/-- The shifts and the rotation take their amount s from b[4:0]: C is the last bit shifted out, 0 for s = 0; a shift beyond the width
leaves 0 (SAR: copies of the sign, and C the sign), and ROL turns by s modulo the width. -/
def Obligations.LequinShifts : Prop :=
  LqDoes 0x08 .shl LqFields.okFA (aluEff fun _ w a b =>
    let n := b.toNat % 32; (a <<< n, n ≠ 0 && n ≤ w && a.getLsbD (w - n))) ∧
  LqDoes 0x09 .shr LqFields.okFA (aluEff fun _ _ a b =>
    let n := b.toNat % 32; (a >>> n, n ≠ 0 && a.getLsbD (n - 1))) ∧
  LqDoes 0x0A .sar LqFields.okFA (aluEff fun _ w a b =>
    let n := b.toNat % 32; (a.sshiftRight n, n ≠ 0 && (if n ≤ w then a.getLsbD (n - 1) else a.msb))) ∧
  LqDoes 0x0B .rol LqFields.okFA (aluEff fun _ w a b =>
    let n := b.toNat % 32 % w; (a.rotateLeft n, n ≠ 0 && (a.rotateLeft n).getLsbD 0))

/-- The moves: MOV, MOVI, LDI24, MOVD and SEL change no flag; WRS writes Z, C, N and F from Wa[3:0]; BITF takes out or puts in a
field and sets Z and N by the value it writes. -/
def Obligations.LequinMoves : Prop :=
  LqDoes 0x10 .mov LqFields.okMov (fun f x => x.setW f.d.toNat (x.w f.a.toNat)) ∧
  LqDoes 0x11 .movi LqFields.okMovi
    (fun f x => if f.x then x.setDn f.d.toNat (f.k.setWidth 24) else x.setW f.d.toNat f.k) ∧
  LqDoes 0x12 .ldi24 LqFields.okLdi24 (fun f x => x.setDn f.d.toNat (f.c ++ f.b ++ f.a ++ f.k)) ∧
  LqDoes 0x13 .movd LqFields.okMovd (fun f x => x.setDn f.d.toNat (x.dn f.a.toNat)) ∧
  LqDoes 0x16 .sel LqFields.okSel
    (fun f x => x.setW f.d.toNat (if x.cond f.c then x.w f.a.toNat else x.w f.b.toNat)) ∧
  LqDoes 0x15 .wrs LqFields.okA (fun f x =>
    let v := x.w f.a.toNat
    { x with z := v.getLsbD 0, c := v.getLsbD 1, n := v.getLsbD 2, f := v.getLsbD 3 }) ∧
  LqDoes 0x17 .bitf LqFields.okBitf (fun f x =>
    let pos := (f.k.extractLsb' 0 4).toNat
    let len := (f.k.extractLsb' 4 4).toNat
    let a := (x.w f.a.toNat).toNat
    let d := (x.w f.d.toNat).toNat
    let v : BitVec 12 := if f.i then BitVec.ofNat 12 (d - d / 2 ^ pos % 2 ^ len * 2 ^ pos + a % 2 ^ len * 2 ^ pos)
      else BitVec.ofNat 12 (a / 2 ^ pos % 2 ^ len)
    { x.setW f.d.toNat v with z := v = 0, n := v.msb })

/-- RDS of the special registers that are no record registers, TIME and NOP: FLAGS, the step counter, the budget in force, the
conflict count, the call depth and ENTRY_PC go to Wd; TIME writes the low 48 bits of the time base to four registers. -/
def Obligations.LequinSpecialRegisters : Prop :=
  (∀ (s : State) (r : RunRef) (x : Run) (f : LqFields), s.Fetches r x 0x14 f → f.only { d := true, k := true } = true →
    x.pc ≠ 0xFFF →
    (f.k = 0 → exec (.rds r f) s = .next (s.setRun r (some (x.counted.setW f.d.toNat
      (BitVec.ofNat 12 (x.z.toNat + 2 * x.c.toNat + 4 * x.n.toNat + 8 * x.f.toNat + 16 * x.rndv.toNat + 32 * x.serial.toNat +
        64 * x.rerun.toNat))).past))) ∧
    (f.k = 1 → exec (.rds r f) s = .next (s.setRun r (some (x.counted.setW f.d.toNat (BitVec.ofNat 12 (x.steps + 1))).past))) ∧
    (f.k = 2 → exec (.rds r f) s = .next (s.setRun r (some (x.counted.setW f.d.toNat (BitVec.ofNat 12 x.budget)).past))) ∧
    (f.k = 3 → exec (.rds r f) s = .next (s.setRun r (some (x.counted.setW f.d.toNat (BitVec.ofNat 12 x.conflicts)).past))) ∧
    (f.k = 5 → exec (.rds r f) s = .next (s.setRun r (some (x.counted.setW f.d.toNat (BitVec.ofNat 12 x.stack.length)).past))) ∧
    (f.k = 6 → exec (.rds r f) s = .next (s.setRun r (some (x.counted.setW f.d.toNat x.entryPc).past)))) ∧
  (∀ (s : State) (r : RunRef) (x : Run) (f : LqFields), s.Fetches r x 0x3C f → f.only { d := true } = true → f.d.toNat ≤ 12 →
    x.pc ≠ 0xFFF → ∃ y : Run, exec (.time r f) s = .next (s.setRun r (some y)) ∧ y = { x.counted.past with regs := y.regs } ∧
      y.regs = (x.setFour f.d.toNat (s.gl.time.extractLsb' 0 48)).regs) ∧
  LqDoes 0x3F .nop LqFields.okFN (fun _ x => x)

/-- BR jumps; BC jumps where its condition holds; CALL pushes the next address and jumps; RET pops; SWITCH jumps into its table
where the index lies in it; each changes nothing else of the run but its step count. -/
def Obligations.LequinTransfers : Prop :=
  (∀ (s : State) (r : RunRef) (x : Run) (f : LqFields), s.Fetches r x 0x18 f → f.okFT = true →
    exec (.br r f) s = .next (s.setRun r (some { x.counted with pc := f.k }))) ∧
  (∀ (s : State) (r : RunRef) (x : Run) (f : LqFields), s.Fetches r x 0x19 f → LqFields.okBc f = true →
    (x.cond f.d = true → exec (.bc r f) s = .next (s.setRun r (some { x.counted with pc := f.k }))) ∧
    (x.cond f.d = false → x.pc ≠ 0xFFF → exec (.bc r f) s = .next (s.setRun r (some x.counted.past)))) ∧
  (∀ (s : State) (r : RunRef) (x : Run) (f : LqFields), s.Fetches r x 0x1A f → f.okFT = true → x.pc ≠ 0xFFF →
    x.stack.length < 4 →
    exec (.call r f) s = .next (s.setRun r (some { x.counted with pc := f.k, stack := (x.pc + 1) :: x.stack }))) ∧
  (∀ (s : State) (r : RunRef) (x : Run) (f : LqFields) (a : BitVec 12) (l : List (BitVec 12)), s.Fetches r x 0x1B f →
    f.okFN = true → x.stack = a :: l →
    exec (.ret r f) s = .next (s.setRun r (some { x.counted with pc := a, stack := l }))) ∧
  (∀ (s : State) (r : RunRef) (x : Run) (f : LqFields), s.Fetches r x 0x1C f → LqFields.okSwitch f = true →
    ((x.w f.a.toNat).toNat < f.count →
      exec (.switch r f) s = .next (s.setRun r (some { x.counted with pc := f.k + x.w f.a.toNat }))) ∧
    (f.count ≤ (x.w f.a.toNat).toNat → x.pc ≠ 0xFFF → exec (.switch r f) s = .next (s.setRun r (some x.counted.past))))

/-- BUDGET lowers the run's budget to the lesser of the one in force and its operand, and writes to Wd what is left of it. -/
def Obligations.LequinBudget : Prop :=
  ∀ (s : State) (r : RunRef) (x : Run) (f : LqFields), s.Fetches r x 0x1D f → LqFields.okBudget f = true → x.pc ≠ 0xFFF →
    let b := min x.budget (if f.i then f.k else x.w f.a.toNat).toNat
    x.steps + 1 < b →
    exec (.budget r f) s = .next (s.setRun r
      (some { x.counted.setW f.d.toNat (BitVec.ofNat 12 (b - (x.steps + 1))) with budget := b, pc := x.pc + 1 }))

/-- A run that traps is over: its context is free, its entry waits no more for a commit, and the trap is counted. TRAP does so by
itself; an encoding the opcode map does not allow, a word 0, and a step beyond the budget do so for every arithmetic instruction. -/
def Obligations.LequinTraps : Prop :=
  (∀ (s : State) (r : RunRef) (x : Run) (f : LqFields), s.Canonical → s.mirrorOn = false → s.NoneWaits → s.Fetches r x 0x1F f →
    f.okFN = true →
    ∃ t, exec (.trap r f) s = .next t ∧ t.run r = none ∧ t.pa.trapCnt = satInc s.pa.trapCnt) ∧
  (∀ (s : State) (r : RunRef) (x : Run) (f : LqFields), s.Canonical → s.mirrorOn = false → s.NoneWaits →
    s.stepping r = some x → s.copyBad r.cluster.toNat x.pc.toNat = false →
    s.copyWord r.cluster.toNat x.pc.toNat = lqWord 0x02 f →
    (f.okFA = false ∨ x.budget ≤ x.steps) →
    ∃ t, exec (.sub r f) s = .next t ∧ t.run r = none ∧ t.pa.trapCnt = satInc s.pa.trapCnt)

/-- TRAP of a run that still holds its entry, no trap entry, where the entry ITIN_TRAP can take the post: the record names the event, the cause 1,
the PC, the steps with TRAP's own, the conflicts and SERIAL, and the entry is TRAPPED with RUN clear. -/
def Obligations.TrapLeavesItsRecord : Prop :=
  ∀ (s : State) (r : RunRef) (x : Run) (f : LqFields), s.Canonical → s.Calm → s.gb.enable = false → s.Fetches r x 0x1F f →
    f.okFN = true → x.event ≠ srcItinTrap → x.event ≠ srcStepTrap → x.event < nEntries →
    (s.entry x.event).state = .posted → (s.entry x.event).run = true →
    (∀ p ∈ s.allRuns, p.2.event = x.event → p.2.order ≤ x.order) → (s.entry srcItinTrap).state = .idle →
    (s.entry srcItinTrap).direct = false → s.Unplaced srcItinTrap →
    ∃ t, exec (.trap r f) s = .next t ∧
      t.lt.itinTraps = s.lt.itinTraps ++ [⟨BitVec.ofNat 17 x.event, 1, x.pc, BitVec.ofNat 12 (min (x.steps + 1) 4095),
        BitVec.ofNat 2 (min x.conflicts 3), x.serial⟩] ∧
      (t.side x.event).trapped = true ∧ (t.entry x.event).run = false ∧ (t.entry x.event).state = .posted

/-! ### Lequin: entries and contexts (07) -/

/-- LDL and LDX: Wd takes the field that K names of the entry or context as the run reads it, and Z and N follow it; an LDL that names
no entry writes 0. -/
def Obligations.LequinLoads : Prop :=
  (∀ (s : State) (r : RunRef) (x y : Run) (f : LqFields) (e : Nat) (t : State) (it : ReadItem),
    s.Fetches r x 0x20 f → LqFields.okLdl f = true → x.pc ≠ 0xFFF → x.eventA f = some e →
    s.Reads r x.counted (.entry e) y t it →
    exec (.ldl r f) s = .next (t.setRun r
      (some { (y.setW f.d.toNat (it.field f.k)).past with z := it.field f.k = 0, n := (it.field f.k).msb }))) ∧
  (∀ (s : State) (r : RunRef) (x : Run) (f : LqFields),
    s.Fetches r x 0x20 f → LqFields.okLdl f = true → x.pc ≠ 0xFFF → x.eventA f = none →
    exec (.ldl r f) s = .next (s.setRun r (some { (x.counted.setW f.d.toNat 0).past with z := true, n := false }))) ∧
  (∀ (s : State) (r : RunRef) (x y : Run) (f : LqFields) (t : State) (it : ReadItem),
    s.Fetches r x 0x28 f → LqFields.okLdx f = true → x.pc ≠ 0xFFF →
    s.Reads r x.counted (.ctx (x.w f.a.toNat).toNat) y t it →
    exec (.ldx r f) s = .next (t.setRun r
      (some { (y.setW f.d.toNat (t.ctxField it f.k)).past with z := t.ctxField it f.k = 0, n := (t.ctxField it f.k).msb })))

/-- The fields of an entry that LDL gives are those of its two window words, and VERSION is the one recorded; a field that an STL has
written is what an LDL of the view then gives, and every other field but the VERSION is as before. -/
def Obligations.EntryFieldsAreWindowFields : Prop :=
  (∀ it : ReadItem,
    it.field 0 = it.entry.word0.extractLsb' 0 12 ∧ it.field 1 = it.entry.word0.extractLsb' 12 12 ∧
    it.field 2 = it.entry.word0.extractLsb' 24 12 ∧ it.field 3 = it.entry.word0.extractLsb' 46 12 ∧
    it.field 4 = (it.entry.word0.extractLsb' 36 10).setWidth 12 ∧ it.field 5 = it.entry.word1.extractLsb' 0 12 ∧
    it.field 6 = it.entry.word1.extractLsb' 12 12 ∧ it.field 7 = it.entry.word1.extractLsb' 24 12 ∧
    it.field 8 = it.entry.word1.extractLsb' 36 12 ∧ it.field 9 = it.version ∧
    it.field 10 = (it.entry.word0.extractLsb' 58 3 ++ it.entry.word1.extractLsb' 60 4 : BitVec 7).setWidth 12) ∧
  (∀ (it : ReadItem) (v k j : BitVec 12), k ∈ [1, 2, 3, 5, 6, 7, 8] → j ∈ [0, 1, 2, 3, 4, 5, 6, 7, 8, 9, 10] →
    ({ it with entry := it.entry.withField k v } : ReadItem).field j = if j = k then v else it.field j)

/-- The words of an entry, of a context and of a Tollgate region hold all their fields: read back, they give the entry, the context or
the region again. -/
def Obligations.WindowWordsHoldEveryField : Prop :=
  (∀ x : Entry, entryOfWords x.state x.word0 x.word1 = x) ∧
  (∀ x : Ctx, ctxOfWords (fun w => x.word (.none, 0) w) = x) ∧
  (∀ r : Region, regionOf r.bits = r)

/-- STL and CASL: an IDLE or PARKED entry other than the run's own takes the field where the setup is allowed; an entry in another
state refuses it; CASL stages it only where the field equals Wd, and always gives the old field in Wd. -/
def Obligations.LequinEntryStores : Prop :=
  (∀ (s t : State) (r : RunRef) (x y : Run) (f : LqFields) (e : Nat) (it : ReadItem),
    s.OnEntry r x 0x21 LqFields.okStl f e y t it → f.k ≠ 0 →
    (e ≠ x.event → (it.entry.state = .idle ∨ it.entry.state = .parked) →
      t.setupFault (it.entry.withField f.k (x.w f.b.toNat)) = none →
      Accepts (.stl r f) s r y t (.field e f.k (x.w f.b.toNat))) ∧
    (e = x.event ∨ (it.entry.state ≠ .idle ∧ it.entry.state ≠ .parked) → Refuses (.stl r f) s r y t)) ∧
  (∀ (s t : State) (r : RunRef) (x y : Run) (f : LqFields) (e : Nat) (it : ReadItem),
    s.OnEntry r x 0x22 LqFields.okCasl f e y t it → f.k ≠ 0 →
    (it.field f.k ≠ x.w f.d.toNat →
      exec (.casl r f) s = .next (t.setRun r
        (some { (y.setW f.d.toNat (it.field f.k)).past with z := false, f := false }))) ∧
    (it.field f.k = x.w f.d.toNat → e ≠ x.event → (it.entry.state = .idle ∨ it.entry.state = .parked) →
      t.setupFault (it.entry.withField f.k (x.w f.b.toNat)) = none →
      ∃ z : Run, exec (.casl r f) s = .next (t.setRun r (some z)) ∧ z.z = true ∧ z.f = false ∧ z.pc = x.pc + 1 ∧
        z.w f.d.toNat = it.field f.k ∧ z.effects = y.effects ++ [.field e f.k (x.w f.b.toNat)]))

/-- POST and COAL on another entry are accepted where the table of stimuli lodges, merges or re-posts, and refused by an entry that
is HELD_JOIN, HELD_TWOKEY or FAULTED, by one that would be Busy, and for the fixed identifiers below 0x440. -/
def Obligations.LequinPosts : Prop :=
  (∀ (s t : State) (r : RunRef) (x y : Run) (f : LqFields) (e : Nat) (it : ReadItem),
    s.OnEntry r x 0x23 LqFields.okPost f e y t it → e ≠ x.event →
    let keep := f.k.getLsbD 0
    let nomerge := f.k.getLsbD 1
    let merges : Prop := it.entry.coalesce = true ∧ nomerge = false ∧ t.mergeFull y e = false
    (0x440 ≤ e → (it.entry.state ∈ [.idle, .parked, .claimed] ∨
        (it.entry.state ∈ [.posted, .queued, .offered, .claimedRepost, .heldCurfew] ∧ merges)) →
      Accepts (.post r f) s r y t (.post e (x.three f.b.toNat) keep nomerge)) ∧
    (e < 0x440 ∨ it.entry.state ∈ [.heldJoin, .heldTwokey, .faulted] ∨
        (it.entry.state ∈ [.posted, .queued, .offered, .claimedRepost, .heldCurfew] ∧ ¬merges) →
      Refuses (.post r f) s r y t)) ∧
  (∀ (s t : State) (r : RunRef) (x y : Run) (f : LqFields) (e : Nat) (it : ReadItem),
    s.OnEntry r x 0x25 LqFields.okCoal f e y t it →
    (0x440 ≤ e → e ≠ x.event → (it.entry.state ∈ [.idle, .parked, .claimed] ∨
        (it.entry.state ∈ [.posted, .queued, .offered, .claimedRepost, .heldCurfew] ∧ t.mergeFull y e = false)) →
      Accepts (.coal r f) s r y t (.coal e (x.three f.b.toNat))) ∧
    (e < 0x440 ∨ e = x.event ∨ it.entry.state ∈ [.heldJoin, .heldTwokey, .faulted] → Refuses (.coal r f) s r y t))

/-- CANCEL, PARK and SETPRI: CANCEL is accepted where the entry has a posting to take back, PARK where it is POSTED, and SETPRI on
another entry that is not FAULTED, within its function's ceiling and not 0 for a DIRECT one, raised to the floor of an OPEN context. -/
def Obligations.LequinCancelParkPriority : Prop :=
  (∀ (s t : State) (r : RunRef) (x y : Run) (f : LqFields) (e : Nat) (it : ReadItem),
    s.OnEntry r x 0x24 LqFields.okPairA f e y t it → (e ≠ x.event ∨ x.ownEffect = none) →
    (it.entry.state ∈ [.posted, .queued, .offered, .heldCurfew, .parked, .claimedRepost] → Accepts (.cancel r f) s r y t (.cancel e)) ∧
    (it.entry.state ∈ [.idle, .claimed, .heldJoin, .heldTwokey, .faulted] → Refuses (.cancel r f) s r y t)) ∧
  (∀ (s t : State) (r : RunRef) (x y : Run) (f : LqFields) (e : Nat) (it : ReadItem),
    s.OnEntry r x 0x26 LqFields.okPairA f e y t it → (e ≠ x.event ∨ x.ownEffect = none) →
    (it.entry.state = .posted → Accepts (.park r f) s r y t (.park e)) ∧
    (it.entry.state ≠ .posted → Refuses (.park r f) s r y t)) ∧
  (∀ (s t : State) (r : RunRef) (x y : Run) (f : LqFields) (e : Nat) (it : ReadItem),
    s.OnEntry r x 0x27 LqFields.okSetpri f e y t it → it.entry.ctxv = false →
    let p := if f.i then f.k else x.w f.b.toNat
    (e ≠ x.event → it.entry.state ≠ .faulted → (it.entry.direct = false ∨ p ≠ 0) →
      p.toNat ≤ (t.priCeil it.entry.function.toNat).toNat → Accepts (.setpri r f) s r y t (.setpri e p)) ∧
    (e = x.event ∨ it.entry.state = .faulted ∨ (it.entry.direct = true ∧ p = 0) ∨
      (t.priCeil it.entry.function.toNat).toNat < p.toNat → Refuses (.setpri r f) s r y t)) ∧
  (∀ (s t t' : State) (r : RunRef) (x y y' : Run) (f : LqFields) (e : Nat) (it c : ReadItem),
    s.OnEntry r x 0x27 LqFields.okSetpri f e y t it → it.entry.ctxv = true →
    t.Reads r y (.ctx it.entry.context.toNat) y' t' c → y'.effects.length < 16 → e ≠ x.event → it.entry.state ≠ .faulted →
    let p := if f.i then f.k else x.w f.b.toNat
    let q := if c.ctx.state = .opened ∧ p.toNat < c.ctx.floor.toNat then c.ctx.floor else p
    (it.entry.direct = false ∨ q ≠ 0) → q.toNat ≤ (t'.priCeil it.entry.function.toNat).toNat →
    Accepts (.setpri r f) s r y' t' (.setpri e q))

/-- STX, JOIN, JADD, DLSET, DLCLR and KEYARM are accepted in the states of the context that the table of ledger operations gives
them, here without a follow-on to read, and refused in the others. -/
def Obligations.LequinLedgerEffects : Prop :=
  (∀ (s t : State) (r : RunRef) (x y : Run) (f : LqFields) (c : Nat) (it : ReadItem),
    s.OnCtx r x 0x29 LqFields.okStx f c y t it →
    (it.ctx.state ∈ [.opened, .lapsed] → Accepts (.stx r f) s r y t (.stx c (x.three f.b.toNat))) ∧
    (it.ctx.state ∈ [.free, .faulted] → Refuses (.stx r f) s r y t)) ∧
  (∀ (s t : State) (r : RunRef) (x y : Run) (f : LqFields) (c : Nat) (it : ReadItem),
    s.OnCtx r x 0x2A LqFields.okA f c y t it → it.ctx.folv = false →
    (it.ctx.count ≠ 0 → it.ctx.state ∈ [.opened, .lapsed] → Accepts (.join r f) s r y t (.join c)) ∧
    (it.ctx.count = 0 ∨ it.ctx.state ∈ [.free, .faulted] → Refuses (.join r f) s r y t)) ∧
  (∀ (s t : State) (r : RunRef) (x y : Run) (f : LqFields) (c : Nat) (it : ReadItem),
    s.OnCtx r x 0x2B LqFields.okJadd f c y t it → f.x = false →
    let n := if f.i then f.k else x.w f.b.toNat
    (n ≠ 0 → (it.ctx.state = .free ∨ (it.ctx.state = .opened ∧ it.ctx.count.toNat + n.toNat ≤ 4095)) →
      Accepts (.jadd r f) s r y t (.jadd c n none y.ownPay false)) ∧
    (n = 0 ∨ it.ctx.state ∈ [.lapsed, .faulted] ∨ (it.ctx.state = .opened ∧ 4095 < it.ctx.count.toNat + n.toNat) →
      Refuses (.jadd r f) s r y t)) ∧
  (∀ (s t : State) (r : RunRef) (x y : Run) (f : LqFields) (c : Nat) (it : ReadItem),
    s.OnCtx r x 0x2C LqFields.okDlset f c y t it →
    let k := f.k.extractLsb' 0 4
    (it.ctx.state = .opened →
      (∀ i, i < 8 → (t.curve k.toNat i).valid = true →
        (t.curve k.toNat i).floor.toNat ≤ (t.priCeil it.ctx.owner.toNat).toNat) →
      Accepts (.dlset r f) s r y t (.dlset c (x.four f.c.toNat) k)) ∧
    (it.ctx.state ≠ .opened → Refuses (.dlset r f) s r y t)) ∧
  (∀ (s t : State) (r : RunRef) (x y : Run) (f : LqFields) (c : Nat) (it : ReadItem),
    s.OnCtx r x 0x2D LqFields.okA f c y t it → it.ctx.folv = false →
    (it.ctx.state = .opened → Accepts (.dlclr r f) s r y t (.dlclr c)) ∧
    (it.ctx.state ≠ .opened → Refuses (.dlclr r f) s r y t)) ∧
  (∀ (s t : State) (r : RunRef) (x y : Run) (f : LqFields) (c : Nat) (it : ReadItem),
    s.OnCtx r x 0x2E LqFields.okKeyarm f c y t it → f.x = false →
    (it.ctx.state = .opened → it.ctx.folv = true → it.ctx.armed = false →
      Accepts (.keyarm r f) s r y t (.keyarm c (f.k.extractLsb' 0 2) none y.ownPay false)) ∧
    (it.ctx.state ≠ .opened ∨ it.ctx.folv = false ∨ it.ctx.armed = true → Refuses (.keyarm r f) s r y t))

/-- JADD and KEYARM with a follow-on: a FREE context and an IDLE follow-on, both read, take it. KEYCHK sets Z where the context is
OPEN and EXPIRED in the epoch of Wb. -/
def Obligations.LequinFollowOns : Prop :=
  (∀ (s t t' : State) (r : RunRef) (x y y' : Run) (f : LqFields) (c : Nat) (it fo : ReadItem),
    s.OnCtx r x 0x2B LqFields.okJadd f c y t it → f.x = true → (x.dn f.c.toNat).toNat < nEntries →
    t.Reads r y (.entry (x.dn f.c.toNat).toNat) y' t' fo → y'.effects.length < 16 →
    it.ctx.state = .free → fo.entry.state = .idle →
    let n := if f.i then f.k else x.w f.b.toNat
    let e := (x.dn f.c.toNat).toNat
    n ≠ 0 → Accepts (.jadd r f) s r y' t' (.jadd c n (some e) y'.ownPay (y'.stlPay.contains e))) ∧
  (∀ (s t t' : State) (r : RunRef) (x y y' : Run) (f : LqFields) (c : Nat) (it fo : ReadItem),
    s.OnCtx r x 0x2E LqFields.okKeyarm f c y t it → f.x = true → (x.dn f.c.toNat).toNat < nEntries →
    t.Reads r y (.entry (x.dn f.c.toNat).toNat) y' t' fo → y'.effects.length < 16 →
    it.ctx.state = .free → fo.entry.state = .idle →
    let e := (x.dn f.c.toNat).toNat
    Accepts (.keyarm r f) s r y' t' (.keyarm c (f.k.extractLsb' 0 2) (some e) y'.ownPay (y'.stlPay.contains e))) ∧
  (∀ (s t : State) (r : RunRef) (x y : Run) (f : LqFields) (it : ReadItem),
    s.Fetches r x 0x2F f → LqFields.okKeychk f = true → x.pc ≠ 0xFFF →
    s.Reads r x.counted (.ctx (x.w f.a.toNat).toNat) y t it →
    exec (.keychk r f) s = .next (t.setRun r
      (some { y.past with z := it.ctx.state = .opened && it.ctx.expired && it.ctx.epoch = x.w f.b.toNat })))

/-- OFFER, FWD and CURF: accepted on an entry in a state that takes them, whose setup is allowed; FWD also needs a link to the block it
names and reserves a room there; MSIX a vector the function holds; NQW an enabled queue of the function with a free slot, which it
reserves. -/
def Obligations.LequinDeliveryEffects : Prop :=
  (∀ (s t : State) (r : RunRef) (x y : Run) (f : LqFields) (e : Nat) (it : ReadItem),
    s.OnEntry r x 0x30 LqFields.okOffer f e y t it → f.x = false → (e ≠ x.event ∨ x.ownEffect = none) →
    let p := x.w f.b.toNat
    let tgt := (x.w f.c.toNat).extractLsb' 0 10
    let m := f.k.extractLsb' 0 2
    let keep : Bool := it.entry.state ≠ .idle || y.stlPay.contains e
    (it.entry.state ∈ [.idle, .posted, .parked, .offered, .claimed, .claimedRepost] → y.staleReoffer e it.entry.state = false →
      t.setupFault (it.entry.withOffer p tgt m none y.ownPay keep) = none →
      p.toNat ≤ (t.priCeil it.entry.function.toNat).toNat →
      Accepts (.offer r f) s r y t (.offer e p tgt m none y.ownPay keep)) ∧
    (it.entry.state ∈ [.queued, .heldJoin, .heldTwokey, .heldCurfew, .faulted] ∨
      (t.priCeil it.entry.function.toNat).toNat < p.toNat → Refuses (.offer r f) s r y t)) ∧
  (∀ (s t : State) (r : RunRef) (x y : Run) (f : LqFields) (e rm : Nat) (it : ReadItem),
    s.OnEntry r x 0x35 LqFields.okFwd f e y t it → (e ≠ x.event ∨ x.ownEffect = none) →
    let tgt := (x.w f.b.toNat).extractLsb' 0 10
    let b := (tgt.extractLsb' 8 2).toNat
    let keep : Bool := it.entry.state ≠ .idle || y.stlPay.contains e
    it.entry.state ∈ [.idle, .posted, .parked] →
    t.setupFault { it.entry with target := tgt, tmode := 3, payload := if keep then it.entry.payload else y.ownPay } = none →
    t.linkUp b = true → t.freeRoom b = some rm →
    Accepts (.fwd r f) s r y (t.modPeer b fun p => { p with reserved := p.reserved ++ [BitVec.ofNat 12 rm] })
      (.fwd e tgt (some (BitVec.ofNat 12 rm)) y.ownPay keep)) ∧
  (∀ (s t : State) (r : RunRef) (x y : Run) (f : LqFields) (e : Nat) (it : ReadItem),
    s.OnEntry r x 0x36 LqFields.okCurf f e y t it →
    (e ≠ x.event → it.entry.state ∈ [.idle, .parked] →
      t.setupFault { it.entry with sensitive := true, cls := f.k.extractLsb' 0 3 } = none →
      Accepts (.curf r f) s r y t (.curf e (f.k.extractLsb' 0 3))) ∧
    (e = x.event ∨ it.entry.state ∉ [.idle, .parked] → Refuses (.curf r f) s r y t)) ∧
  (∀ (s : State) (r : RunRef) (x : Run) (f : LqFields), s.Fetches r x 0x33 f → f.okAorK 2047 = true → x.pc ≠ 0xFFF →
    x.effects.length < 16 →
    let v := if f.i then f.k else x.w f.a.toNat
    (v.toNat < (s.fn x.fn.toNat).vecCount → Accepts (.msix r f) s r x.counted s (.msix (v.extractLsb' 0 11))) ∧
    ((s.fn x.fn.toNat).vecCount ≤ v.toNat → Refuses (.msix r f) s r x.counted s)) ∧
  (∀ (s : State) (r : RunRef) (x : Run) (f : LqFields), s.Fetches r x 0x34 f → LqFields.okNqw f = true → x.pc ≠ 0xFFF →
    x.effects.length < 16 → x.w f.a.toNat ≠ 0xFFF →
    let q := (x.w f.a.toNat).toNat
    let fn := s.fn x.fn.toNat
    let ready : Prop := q < fn.nqCount ∧ (fn.nq q).enable = true ∧ 0 < (fn.nq q).freeSlots
    (ready → Accepts (.nqw r f) s r x.counted
      (s.modFn x.fn.toNat fun z => z.modNq q fun n => { n with reserved := n.reserved + 1 }) (.nqw q (x.four f.b.toNat))) ∧
    (¬ready → Refuses (.nqw r f) s r x.counted s))

/-- HINT sets its Porter's hint to the target it names and clears it for a number above 255, RETRACT clears it; STEAL notes the entry
it names; GENACK and SYNCGEN of a function in service take its current descriptor where the run's is older, GENACK telling by Z
whether it was the current one. -/
def Obligations.LequinHintsAndGenerations : Prop :=
  (∀ (s : State) (r : RunRef) (x : Run) (f : LqFields), s.Fetches r x 0x31 f → f.okAorK 255 = true → x.pc ≠ 0xFFF →
    let v := if f.i then f.k else x.w f.a.toNat
    exec (.hint r f) s = .next ((s.modPorter r.cluster.toNat r.porter.toNat fun p =>
      { p with hint := if v.toNat ≤ 255 then some (v.extractLsb' 0 8, r.ctx) else none }).setRun r (some x.counted.past))) ∧
  (∀ (s : State) (r : RunRef) (x : Run) (f : LqFields), s.Fetches r x 0x32 f → f.okFN = true → x.pc ≠ 0xFFF →
    exec (.retract r f) s = .next ((s.modPorter r.cluster.toNat r.porter.toNat fun p => { p with hint := none }).setRun r
      (some x.counted.past))) ∧
  (∀ (s : State) (r : RunRef) (x : Run) (f : LqFields), s.Fetches r x 0x3B f → f.okPairA = true → x.pc ≠ 0xFFF →
    exec (.steal r f) s = .next (s.setRun r (some { x.counted.past with
      steal := if (x.dn f.a.toNat).toNat < 131072 then some (x.dn f.a.toNat).toNat else none }))) ∧
  (∀ (s : State) (r : RunRef) (x : Run) (f : LqFields), s.Fetches r x 0x3D f → f.okFN = true → x.pc ≠ 0xFFF →
    (s.fn x.fn.toNat).state = .inService →
    let g := (s.fn x.fn.toNat).gen
    exec (.syncgen r f) s = .next (s.setRun r (some
      (if x.cacheGen = some g then x.counted.past
       else { x.counted.past with cache := s.descriptor x.fn.toNat, cacheGen := some g })))) ∧
  (∀ (s : State) (r : RunRef) (x : Run) (f : LqFields), s.Fetches r x 0x3E f → f.okFN = true → x.pc ≠ 0xFFF →
    let g := (s.fn x.fn.toNat).gen
    exec (.genack r f) s = .next (s.setRun r (some
      (if x.cacheGen = some g then { x.counted.past with z := true }
       else { x.counted.past with cache := s.descriptor x.fn.toNat, cacheGen := some g, z := false }))))

/-- LOG with logging off only takes its step; with it on and the ring ready it appends one record. RAND gives the Porter's counter in
the fallback, and otherwise 12 bits of the jitter pool, which are free. FWAIT of a function none of whose earlier runs goes on.
The bits of the pool are free values
(notes/assumptions/2.md). -/
def Obligations.LequinLogRandAndWaits : Prop :=
  (∀ (s : State) (r : RunRef) (x : Run) (f : LqFields), s.Fetches r x 0x37 f → LqFields.okLog f = true → x.pc ≠ 0xFFF →
    (s.gb.logEn = false → exec (.log r f) s = .next (s.setRun r (some x.counted.past))) ∧
    (s.gb.logEn = true → s.gb.enable = true → s.gbSuspended = false → s.gbUnread < 16384 → s.gb.pending = 0 →
      s.gb.gapDue = none → s.gb.lastTime = some (s.gl.time.extractLsb' 32 16) →
      ∃ t, exec (.log r f) s = .next t ∧ t.gb.prod = s.gb.prod + 1 ∧ t.run r = (s.setRun r (some x.counted.past)).run r)) ∧
  (∀ (s : State) (r : RunRef) (x : Run) (f : LqFields), s.Fetches r x 0x3A f → f.only { d := true } = true → x.pc ≠ 0xFFF →
    (s.fallback = true →
      let v := (s.runPorter r).randCtr + 1
      exec (.rand r f) s = .next ((s.modPorter r.cluster.toNat r.porter.toNat fun p => { p with randCtr := v }).setRun r
        (some { (x.counted.setW f.d.toNat v).past with rndv := false }))) ∧
    (s.fallback = false → 12 ≤ s.poolBits →
      exec (.rand r f) s = .next ((s.useBits 12).setRun r
        (some { (x.counted.setW f.d.toNat (Config.jitterBits s.free)).past with rndv := true })))) ∧
  (∀ (s : State) (r : RunRef) (x : Run) (f : LqFields), s.Fetches r x 0x39 f → f.okA = true → x.pc ≠ 0xFFF →
    (x.w f.a.toNat).toNat < 1024 →
    (∀ q ∈ s.allRuns, q.2.fn = (x.w f.a.toNat).extractLsb' 0 10 → x.order ≤ q.2.order) →
    exec (.fwait r f) s = .next (s.setRun r
      (some { x.counted.past with fwaited := x.fwaited ++ [(x.w f.a.toNat).extractLsb' 0 10] }))) ∧
  (∀ (s : State) (r : RunRef) (x : Run) (g : BitVec 10), s.Calm → s.live = true → r.wf = true → s.run r = some x →
    x.phase = .fwait g → x.serial = false → (s.runPorter r).exec = r.ctx →
    (∀ q ∈ s.allRuns, q.2.fn = g → x.order ≤ q.2.order) →
    exec (.fwaitResume r) s = .next (s.setRun r (some { x with fwaited := x.fwaited ++ [g], phase := .running })))

/-- DONE and FENCE pass phase A where no item of the read set has changed, is lost, waits or is locked by another run: the run waits
for phase B with every item locked for it. -/
def Obligations.LequinCommitsLockTheReadSet : Prop :=
  ∀ (s : State) (r : RunRef) (x : Run) (f : LqFields), s.Canonical → s.mirrorOn = false → s.NoneWaits →
    (∀ it ∈ x.reads, s.itemWaits it.item = false ∧ s.itemChanged r it = false) → f.okFN = true →
    (s.Fetches r x 0x1E f → ∃ t, exec (.done r f) s = .next t ∧ t.run r = some { x.counted with phase := .commitDone } ∧
      ∀ it ∈ x.reads, match it.item with
        | .entry e => (t.side e).lock = some r
        | .ctx c => t.ctxLock c = some r) ∧
    (s.Fetches r x 0x38 f → ∃ t, exec (.fence r f) s = .next t ∧ t.run r = some { x.counted with phase := .commitFence } ∧
      ∀ it ∈ x.reads, match it.item with
        | .entry e => (t.side e).lock = some r
        | .ctx c => t.ctxLock c = some r)

/-- Phase B of a DONE with nothing staged consumes the run's entry, which goes IDLE, and frees the context; of a FENCE, the run goes
on after it with a new segment that has read its own entry alone. A waiting run receives the free serial token in its turn. -/
def Obligations.CommitsEndAndSerialise : Prop :=
  (∀ (s : State) (r : RunRef) (x : Run), s.Canonical → s.Calm → s.gb.enable = false → s.live = true → r.wf = true →
    s.run r = some x → x.phase = .commitDone → x.effects = [] → x.latched = [] → (∀ it ∈ x.reads, s.itemWaits it.item = false) →
    s.waitsGrant r = false → s.ep.spill = [] → (s.entry x.event).state = .posted → (s.side x.event).placed = none →
    (s.side x.event).holder = none →
    (s.side x.event).room = none →
    (s.wf.enabled = false ∨ (isWired x.event = false ∧ ∀ it ∈ x.reads, ∀ e, it.item = .entry e → isWired e = false)) →
    ∃ t, exec (.commitPhaseB r) s = .next t ∧ t.run r = none ∧
      t.lt.entries = tset {} s.lt.entries x.event
        { s.entry x.event with state := .idle, run := false, merges := 0, version := (s.entry x.event).version + 1 }) ∧
  (∀ (s : State) (r : RunRef) (x : Run), s.Canonical → s.Calm → s.live = true → r.wf = true →
    s.run r = some x → x.phase = .commitFence → x.effects = [] → x.latched = [] → (∀ it ∈ x.reads, s.itemWaits it.item = false) →
    s.waitsGrant r = false → (s.wf.enabled = false ∨ ∀ it ∈ x.reads, ∀ e, it.item = .entry e → isWired e = false) →
    s.ep.spill = [] → x.pc ≠ 0xFFF → (s.runPorter r).state = .active →
    ∃ t y, exec (.commitPhaseB r) s = .next t ∧ t.run r = some y ∧ y.phase = .running ∧ y.pc = x.pc + 1 ∧ y.steps = 0 ∧
      y.regs = x.regs ∧ y.effects = [] ∧ y.conflicts = 0 ∧ y.reads.map (·.item) = [.entry x.event] ∧ t.lt.entries = s.lt.entries) ∧
  (∀ (s : State) (r : RunRef) (l : List RunRef) (x : Run), s.Canonical → s.Calm → s.live = true →
    s.pa.serialHeld = none → s.pa.serialQ = r :: l → s.run r = some x → s.busy x.event = false → s.ownGood x = true →
    (x.check.atStart = true → s.badEntry r { x with pc := (s.entry x.event).entryPc } = false) →
    ∃ t, exec .serialTokenGrant s = .next t ∧ t.pa.serialHeld = some r ∧ t.pa.serialQ = l)

/-! ### The host port and the global registers (10, 16, 17) -/

/-- A read of a scratch register is taken, counted and answered with its value; a request that the Tollgate turns away is counted and
answered DENY; one that arrives while the gate is not OPEN waits without a response; a response that is taken frees its slot. -/
def Obligations.HostPortRequests : Prop :=
  (∀ (s : State) (q : HpReq) (n k : Nat), s.mirrorOn = false → s.blocked = [] → s.awake = true → s.np.zRun = false → s.np.zHold = false →
    q.wf = true → q.write = false → q.len = 8 → n < 5 → q.addr.toNat = 0x40 + 8 * n → s.canTake q = true → s.hp.untaken = [] →
    s.judge q = .pass → s.freeSlot q.attr = some k →
    ∃ t, exec (.hostRequest q) s = .next t ∧ t.hp.responses = s.hp.responses ++ [⟨q.attr.id, .ok, [tget 0 s.gl.scratch n]⟩] ∧
      t.hp.slots = s.hp.slots ++ [⟨q.attr.id, k, true, 1⟩] ∧ t.hp.denies = s.hp.denies ∧ t.hp.defers = s.hp.defers ∧
      { t with hp := s.hp } = s) ∧
  (∀ (s : State) (q : HpReq) (code : BitVec 4), s.Calm → s.live = true → q.wf = true → shapeOk q = true → s.canTake q = true →
    s.hp.untaken = [] → s.judge q = .deny code → s.tg.imprecise = false → s.tg.log.valid = true →
    ∃ t, exec (.hostRequest q) s = .next t ∧ t.hp.responses = s.hp.responses ++ [⟨q.attr.id, .deny, readBeats q⟩] ∧
      t.tg.violations = satInc s.tg.violations ∧ t.tg.log = { s.tg.log with overflow := true } ∧
      { t with hp := s.hp, tg := { t.tg with violations := s.tg.violations, log := s.tg.log } } = s) ∧
  (∀ (s : State) (q : HpReq), s.Calm → s.live = true → q.wf = true → shapeOk q = true → s.canTake q = true →
    s.hp.untaken = [] → s.judge q = .stall →
    ∃ t, exec (.hostRequest q) s = .next t ∧ t.hp.stalled = s.hp.stalled ++ [q] ∧ t.hp.responses = s.hp.responses ∧
      { t with hp := s.hp } = s) ∧
  (∀ (s : State) (id : BitVec 6), s.mirrorOn = false → s.hp.untaken = [] → s.tg.gate ≠ .closing →
    (∃ r ∈ s.hp.responses, r.id = id) →
    exec (.hostResponseTaken id) s = .next { s with
      hp.responses := s.hp.responses.filter fun r => r.id ≠ id, hp.slots := s.hp.slots.filter fun x => x.id ≠ id })

/-- Register writes: a scratch register takes the word, PRT_CFG its three fields, an offset that holds nothing is answered DENY;
DISPATCH_HOLD, which drops the tasks that STEALs named, the port counters' CLEAR, and the block index, which changes only unsealed with every
port OFF, and function 0's with it. -/
def Obligations.GlobalRegisterWrites : Prop :=
  (∀ (n : Nat) (v : Word), n < 5 → HostDoes (fun h => .registerWrite h (BitVec.ofNat 27 (0x40 + 8 * n)) v) (fun _ => True)
    fun s => { s with gl.scratch := tset 0 s.gl.scratch n v }) ∧
  (∀ v : Word, HostDoes (fun h => .registerWrite h 0x5000 v) (fun _ => True) fun s =>
    { s with pa.stealMin := v.extractLsb' 0 7, pa.switchTurn := v.extractLsb' 7 5, pa.watchdog := v.extractLsb' 12 12 }) ∧
  (∀ v : Word, HostDenies (fun h => .registerWrite h 0x108 v) fun _ => True) ∧
  HostDoes (fun h => .dispatchHoldWrite h false) (fun _ => True) (fun s => { s with gl.hold := false }) ∧
  HostDoes (fun h => .dispatchHoldWrite h true) (fun _ => True) (fun s => { s with
    gl.hold := true, pa.porters := tmap {} s.pa.porters fun _ p => { p with
      task0 := if p.named.getLsbD 0 then none else p.task0, task1 := if p.named.getLsbD 1 then none else p.task1, named := 0 } }) ∧
  HostDoes .portCountClear (fun _ => True) (fun s => { s with ep.denied := 0, hp.denies := 0, hp.defers := 0 }) ∧
  (∀ i : BitVec 2, HostDoes (fun h => .glbBlockIndexWrite h i)
    (fun s => s.st.sealed = false ∧ ∀ n, n < 4 → (s.port n).state = .off)
    fun s => { s with gl.index := i }.modFn 0 fun x => { x with index := i }) ∧
  (∀ i : BitVec 2, HostDoes (fun h => .glbBlockIndexWrite h i)
    (fun s => s.st.sealed = true ∨ ∃ n, n < 4 ∧ (s.port n).state ≠ .off) fun s => s)

/-! ### Message ingress (02, 08) -/

/-- POST and POST_KEEP of an IDLE entry lodge it with the doorbell's payload or its own, and advance the stamp; a posting that the entry
cannot take is answered DEFER or DENY and counted; so is a doorbell that names no entry. CANCEL takes a POSTED entry back to IDLE; MASK and
UNMASK of a POSTED entry change its MASK; each is answered OK, and where there is nothing to do it does nothing. -/
def Obligations.Doorbells : Prop :=
  ((∀ (s : State) (h : HpAttr) (fn : BitVec 10) (d : Doorbell) (e : Nat), s.Alone e → s.LetIn h → s.InService fn →
    s.doorbellEntry fn d = some e → s.lt.scramble ≠ 0 → (s.entry e).state = .idle → (s.entry e).direct = false →
    (∃ t, exec (.doorbellPost h fn d) s = .next t ∧ s.EntryTakes t e (s.posting e d.payload) ∧ t.hp = ((s.seat h).ok h).hp ∧
      t.rest = ({ s with mi.nextStamp := s.mi.nextStamp + 1, hp := t.hp } : State).rest) ∧
    (∃ t, exec (.doorbellPostKeep h fn d) s = .next t ∧ s.EntryTakes t e (s.posting e (s.entry e).payload) ∧
      t.hp = ((s.seat h).ok h).hp ∧ t.rest = ({ s with mi.nextStamp := s.mi.nextStamp + 1, hp := t.hp } : State).rest)) ∧
  (∀ (s : State) (h : HpAttr) (fn : BitVec 10) (d : Doorbell) (e : Nat), s.Calm → s.LetIn h → s.InService fn →
    s.doorbellEntry fn d = some e → s.lt.scramble ≠ 0 → s.busy e = false →
    ((s.entry e).state ∈ [.posted, .queued, .offered, .claimedRepost, .heldCurfew] →
      ((s.entry e).coalesce = false ∨ d.nomerge = true) →
      exec (.doorbellPost h fn d) s = .next (({ s.seat h with
        mi.nextStamp := s.mi.nextStamp + 1, mi.deferCnt := satInc s.mi.deferCnt }).respond h .defer [])) ∧
    ((s.entry e).state ∈ [.heldJoin, .heldTwokey, .faulted] →
      exec (.doorbellPost h fn d) s = .next (({ s.seat h with
        mi.nextStamp := s.mi.nextStamp + 1, mi.denyCnt := satInc s.mi.denyCnt }).deny h))) ∧
  (∀ (s : State) (h : HpAttr) (fn : BitVec 10) (d : Doorbell), s.Calm → s.LetIn h → s.InService fn →
    (d.rsvLow ≠ 0 ∨ d.rsvHigh ≠ 0 ∨ d.event = 0 ∨ 256 * (s.fn fn.toNat).lodgN.toNat ≤ d.event.toNat) →
    exec (.doorbellPost h fn d) s = .next ({ s.seat h with mi.denyCnt := satInc s.mi.denyCnt }.deny h))) ∧
  (∀ (s : State) (h : HpAttr) (fn : BitVec 10) (d : Doorbell) (e : Nat), s.Alone e → s.LetIn h → s.InService fn →
    s.doorbellEntry fn d = some e → s.lt.scramble ≠ 0 → (s.entry e).state = .posted → (s.entry e).direct = false →
    (∃ t, exec (.doorbellCancel h fn d) s = .next t ∧ s.EntryTakes t e { s.entry e with state := .idle } ∧
      t.hp = ((s.seat h).ok h).hp ∧ t.rest = ({ s with hp := t.hp } : State).rest) ∧
    ((s.entry e).mask = false → ∃ t, exec (.doorbellMask h fn d) s = .next t ∧ s.EntryTakes t e { s.entry e with mask := true } ∧
      t.hp = ((s.seat h).ok h).hp ∧ t.rest = ({ s with hp := t.hp } : State).rest) ∧
    ((s.entry e).mask = true → ∃ t, exec (.doorbellUnmask h fn d) s = .next t ∧ s.EntryTakes t e { s.entry e with mask := false } ∧
      t.hp = ((s.seat h).ok h).hp ∧ t.rest = ({ s with hp := t.hp } : State).rest)) ∧
  (∀ (s : State) (h : HpAttr) (fn : BitVec 10) (d : Doorbell) (e : Nat), s.Calm → s.LetIn h → s.InService fn →
    s.doorbellEntry fn d = some e → s.lt.scramble ≠ 0 → s.busy e = false →
    ((s.entry e).state ∈ [.idle, .claimed, .heldJoin, .heldTwokey, .faulted] →
      exec (.doorbellCancel h fn d) s = .next ((s.seat h).ok h)) ∧
    ((s.entry e).mask = true ∨ (s.entry e).state = .faulted → exec (.doorbellMask h fn d) s = .next ((s.seat h).ok h)) ∧
    ((s.entry e).mask = false ∨ (s.entry e).state = .faulted → exec (.doorbellUnmask h fn d) s = .next ((s.seat h).ok h)))

/-- A fence doorbell is held while an earlier stamped posting of its function has not settled, and else posts the function's event 0
with its tag; one fence at a time, and only for an IDLE event 0. A held fence posts once it may. A two-key release records the first
key of an armed context, satisfies it by a second one of another session and initiator, and counts those it ignores. -/
def Obligations.FencesAndKeys : Prop :=
  (∀ (s : State) (h : HpAttr) (fn : BitVec 10) (v : Word) (e : Nat), s.Alone e → s.LetIn h → s.InService fn →
    v.extractLsb' 12 52 = 0 → s.globalEv fn 0 = some e → s.lt.scramble ≠ 0 → (∀ k ∈ s.mi.fences, k.fn ≠ fn) →
    (s.entry e).state = .idle → (s.entry e).direct = false →
    (s.unsettledBefore (.function fn) s.nextStamp = true → exec (.fenceDoorbell h fn v) s = .next (({ s.seat h with
      mi.nextStamp := s.mi.nextStamp + 1,
      mi.fences := s.mi.fences ++ [(⟨fn, v.extractLsb' 0 12, s.nextStamp⟩ : HeldFence)] } : State).ok h)) ∧
    (s.unsettledBefore (.function fn) s.nextStamp = false → ∃ t, exec (.fenceDoorbell h fn v) s = .next t ∧
      s.EntryTakes t e (s.posting e ((v.extractLsb' 0 12).setWidth 36)) ∧ t.hp = ((s.seat h).ok h).hp ∧
      t.rest = ({ s with mi.nextStamp := s.mi.nextStamp + 1, hp := t.hp } : State).rest)) ∧
  (∀ (s : State) (h : HpAttr) (fn : BitVec 10) (v : Word) (e : Nat), s.Calm → s.LetIn h → s.InService fn →
    v.extractLsb' 12 52 = 0 → s.globalEv fn 0 = some e → s.lt.scramble ≠ 0 → s.busy e = false →
    ((∃ k ∈ s.mi.fences, k.fn = fn) ∨ (s.entry e).state ≠ .idle) →
    exec (.fenceDoorbell h fn v) s = .next ({ s.seat h with mi.deferCnt := satInc s.mi.deferCnt }.respond h .defer [])) ∧
  (∀ (s : State) (fn : BitVec 10) (e : Nat) (k : HeldFence), s.Alone e → s.live = true → fn.toNat ≤ 512 →
    s.globalEv fn 0 = some e → s.mi.fences.find? (fun x => x.fn = fn) = some k →
    s.unsettledBefore (.function fn) k.stamp = false → (s.entry e).state = .idle → (s.entry e).direct = false →
    ∃ t, exec (.heldFenceRelease fn) s = .next t ∧ s.EntryTakes t e (s.posting e (k.tag.setWidth 36)) ∧
      t.rest = ({ s with mi.fences := s.mi.fences.filter (· ≠ k) } : State).rest) ∧
  (∀ (s : State) (h : HpAttr) (fn : BitVec 10) (v : Word), s.Canonical → s.Calm → s.LetIn h → s.InService fn →
    v.extractLsb' 24 40 = 0 → (v.extractLsb' 0 12).toNat < 16 * (s.fn fn.toNat).ledgN.toNat → s.lt.scramble ≠ 0 →
    let c := 16 * (s.fn fn.toNat).ledgBase.toNat + (v.extractLsb' 0 12).toNat
    let x := s.ctx c
    let sess := v.extractLsb' 12 12
    s.ctxBusy c = false →
    (x.state ≠ .opened ∨ x.armed = false ∨ x.keysat = true → exec (.twoKeyRelease h fn v) s =
      .next ({ s.seat h with lg.keyIgnored := satInc s.lg.keyIgnored }.ok h)) ∧
    (x.state = .opened → x.armed = true → x.keysat = false → x.keyOne = false →
      ∃ t, exec (.twoKeyRelease h fn v) s = .next t ∧ t.hp = ((s.seat h).ok h).hp ∧
        t.lg.ctxs = tset {} s.lg.ctxs c
          { x with keyOne := true, keyFirst := s.now, keySession := sess, keyInit := h.init, version := x.version + 1 } ∧
        { t with hp := s.hp, lg := { t.lg with ctxs := s.lg.ctxs, heldExp := s.lg.heldExp, heldWin := s.lg.heldWin } } = s) ∧
    (x.state = .opened → x.armed = true → x.keysat = false → x.keyOne = true → s.windowOver x = false →
      (sess = x.keySession → exec (.twoKeyRelease h fn v) s = .next ({ s.seat h with lg.keyDup := satInc s.lg.keyDup }.ok h)) ∧
      (sess ≠ x.keySession → h.init = x.keyInit →
        exec (.twoKeyRelease h fn v) s = .next ({ s.seat h with lg.keySame := satInc s.lg.keySame }.ok h)) ∧
      (sess ≠ x.keySession → h.init ≠ x.keyInit → x.count ≠ 0 →
        ∃ t, exec (.twoKeyRelease h fn v) s = .next t ∧ t.hp = ((s.seat h).ok h).hp ∧
          t.lg.ctxs = tset {} s.lg.ctxs c { x with keysat := true, keyOne := false, version := x.version + 1 } ∧
          { t with hp := s.hp, lg := { t.lg with ctxs := s.lg.ctxs, heldExp := s.lg.heldExp, heldWin := s.lg.heldWin } } = s)))

/-- An engine record: discarded and counted where the channel is disabled or the record names no entry; lodged and acknowledged where
its entry is IDLE; withheld and counted where the entry is busy. The retry of a withheld record likewise, without a second count; the
engine's request falls once acknowledged.
A command that cannot occur in a state changes nothing there: this model's choice (notes/assumptions/1.md). -/
def Obligations.EngineRecords : Prop :=
  (∀ (s : State) (ch : BitVec 4) (v : Word), s.Calm → s.live = true → s.chan ch.toNat = {} →
    ((s.chCfg ch.toNat).enable = false ∨ (v.extractLsb' 0 17).toNat < 0x440 ∨ v.extractLsb' 17 3 ≠ 0 ∨ v.extractLsb' 56 8 ≠ 0) →
    ∃ t, exec (.engineRecord ch v) s = .next t ∧ t.chan ch.toNat = ⟨true, true, none⟩ ∧
      t.mi.engDiscard = satInc s.mi.engDiscard ∧ (∀ j, j ≠ ch.toNat → t.chan j = s.chan j) ∧
      { t with mi := { t.mi with channels := s.mi.channels, engDiscard := s.mi.engDiscard } } = s) ∧
  (∀ (s : State) (ch : BitVec 4) (v : Word), s.live = true → (s.chCfg ch.toNat).enable = true → recBad v = false →
    let e := (v.extractLsb' 0 17).toNat
    let cfg := s.chCfg ch.toNat
    let x : Entry := { if cfg.sens then { s.entry e with sensitive := true, cls := cfg.cls } else s.entry e with
      payload := v.extractLsb' 32 24 ++ v.extractLsb' 24 8 ++ v.extractLsb' 20 4,
      state := if cfg.sens || (s.entry e).sensitive then .heldCurfew else .posted }
    s.Alone e → (s.entry e).state = .idle → (s.entry e).direct = false →
    (s.chan ch.toNat = {} → ∃ t, exec (.engineRecord ch v) s = .next t ∧ t.chan ch.toNat = ⟨true, true, none⟩ ∧
      s.EntryTakes t e x ∧
      t.rest = ({ s with mi.channels := t.mi.channels, mi.nextStamp := s.mi.nextStamp + 1 } : State).rest) ∧
    ((s.chan ch.toNat).held = some v → ∃ t, exec (.engineRecordRetry ch) s = .next t ∧
      t.chan ch.toNat = { s.chan ch.toNat with ack := true, held := none } ∧ s.EntryTakes t e x ∧
      t.rest = ({ s with mi.channels := t.mi.channels, mi.nextStamp := s.mi.nextStamp + 1 } : State).rest)) ∧
  (∀ (s : State) (ch : BitVec 4) (v : Word), s.Calm → s.live = true → (s.chCfg ch.toNat).enable = true → recBad v = false →
    let x := s.entry (v.extractLsb' 0 17).toNat
    s.busy (v.extractLsb' 0 17).toNat = false → x.state ∈ [.posted, .queued, .offered, .claimedRepost, .heldCurfew] →
    x.coalesce = false → ((s.chCfg ch.toNat).sens = false ∨ x.direct = false) →
    (s.chan ch.toNat = {} → exec (.engineRecord ch v) s = .next
      { s with mi.channels := tset {} s.mi.channels ch.toNat ⟨true, false, some v⟩, mi.engWait := satInc s.mi.engWait }) ∧
    ((s.chan ch.toNat).held = some v → s.Canonical → exec (.engineRecordRetry ch) s = .next s)) ∧
  (∀ (s : State) (ch : BitVec 4),
    ((s.chan ch.toNat).ack = true →
      exec (.engReqFall ch) s = .next (s.modChan ch.toNat fun x => { x with req := false, ack := false })) ∧
    ((s.chan ch.toNat).ack = false → (s.chan ch.toNat).held ≠ none → exec (.engReqFall ch) s = .next s))

/-- A wired line in edge mode posts its entry when its input becomes active, and latches the post where the entry refuses it; an input
that posts nothing is only noted. A latched line, and an internal source whose post waits, post again.
A command that cannot occur in a state changes nothing there: this model's choice (notes/assumptions/1.md). -/
def Obligations.WiredAndInternalPosts : Prop :=
  (∀ (s : State) (n : BitVec 10) (v : Bool), s.Alone (0x40 + n.toNat) → s.live = true → s.np.porst = true → s.wf.enabled = true →
    bit s.wf.level n.toNat = false → s.lineActive n.toNat = false → (v != bit s.wf.activeLow n.toNat) = true →
    let e := 0x40 + n.toNat
    ((s.entry e).state = .idle → (s.entry e).direct = false →
      ∃ t, exec (.wireTransition n v) s = .next t ∧ s.EntryTakes t e (s.posting e (n.setWidth 36)) ∧
        t.wf.pend = setBit s.wf.pend n.toNat false ∧
        t.rest = ({ s with wf.inputs := setBit s.wf.inputs n.toNat v } : State).rest) ∧
    ((s.entry e).state ∈ [.heldJoin, .heldTwokey, .faulted] → exec (.wireTransition n v) s = .next { s with
      wf.inputs := setBit s.wf.inputs n.toNat v, wf.pend := setBit s.wf.pend n.toNat true })) ∧
  (∀ (s : State) (n : BitVec 10) (v : Bool), s.Calm → s.live = true → s.np.porst = true →
    (s.wf.enabled = false ∨ (v != bit s.wf.activeLow n.toNat) = false) →
    exec (.wireTransition n v) s = .next { s with wf.inputs := setBit s.wf.inputs n.toNat v }) ∧
  (∀ (s : State) (n : BitVec 10), s.Alone (0x40 + n.toNat) → s.live = true →
    (bit s.wf.pend n.toNat = true → (s.entry (0x40 + n.toNat)).state = .idle → (s.entry (0x40 + n.toNat)).direct = false →
      ∃ t, exec (.wiredLatchRepost n) s = .next t ∧
        s.EntryTakes t (0x40 + n.toNat) (s.posting (0x40 + n.toNat) (n.setWidth 36)) ∧
        t.wf.pend = setBit s.wf.pend n.toNat false ∧ t.rest = s.rest) ∧
    (bit s.wf.pend n.toNat = false → exec (.wiredLatchRepost n) s = .next s)) ∧
  (∀ (s : State) (src : BitVec 6), s.Alone src.toNat → s.live = true →
    (∀ d, tget none s.lt.srcPend src.toNat = some d → (s.entry src.toNat).state = .idle → (s.entry src.toNat).direct = false →
      ∃ t, exec (.internalPendingRepost src) s = .next t ∧ s.EntryTakes t src.toNat (s.posting src.toNat (d.setWidth 36)) ∧
        t.lt.srcPend = tset none s.lt.srcPend src.toNat none ∧ t.rest = s.rest) ∧
    (tget none s.lt.srcPend src.toNat = none → exec (.internalPendingRepost src) s = .next s))

/-- The lodging and ledger windows: the first words wait; the write of word 0 installs the entry or context that the words give, or,
where it is pending or OPEN, rejects it with code 1, and ends the wait of the first words either way. -/
def Obligations.TableWindows : Prop :=
  (∀ (e : BitVec 17) (v : Word), HostDoes (fun h => .lodgingWindowWord1Write h e v) (fun _ => True)
    fun s => { s with lt.word1 := tset none s.lt.word1 e.toNat (some v) }) ∧
  (∀ (s : State) (h : HpAttr) (e : BitVec 17) (v : Word), s.Calm → s.LetIn h → s.busy e.toNat = false →
    (s.entry e.toNat).state ∉ [.idle, .faulted] → exec (.lodgingWindowWord0Write h e v) s = .next (({ s.seat h with
      lt.word1 := tset none s.lt.word1 e.toNat none,
      lt.reject := if s.lt.reject.valid then { s.lt.reject with overflow := true }
        else { s.lt.reject with event := e, code := 1, valid := true } }).deny h)) ∧
  (∀ (s : State) (h : HpAttr) (e : BitVec 17) (v : Word), s.Alone e.toNat → s.LetIn h →
    (s.entry e.toNat).state ∈ [.idle, .faulted] → (isWired e.toNat = false ∨ s.wf.enabled = false) →
    v.extractLsb' 0 4 = 0 → v.extractLsb' 61 3 = 0 →
    let old := s.entry e.toNat
    let x := { entryOfWords .idle v ((tget none s.lt.word1 e.toNat).getD old.word1) with
      run := false, function := old.function, merges := old.merges }
    s.setupFault x = none →
    ∃ t, exec (.lodgingWindowWord0Write h e v) s = .next t ∧ s.EntryTakes t e.toNat x ∧ t.hp = ((s.seat h).ok h).hp ∧
      t.rest = ({ s with lt.word1 := tset none s.lt.word1 e.toNat none, hp := t.hp } : State).rest) ∧
  (∀ (c : W12) (w : BitVec 3) (v : Word), w ≠ 0 → HostDoes (fun h => .ledgerWindowHeldWrite h c w v) (fun _ => True)
    fun s => { s with lg.held := tset none s.lg.held (8 * c.toNat + w.toNat) (some v) }) ∧
  (∀ (s : State) (h : HpAttr) (c : W12) (v : Word), s.Calm → s.LetIn h → s.ctxLock c.toNat = none → s.ctxWait c.toNat = false →
    (s.ctx c.toNat).folv = false → v.getLsbD 7 = false →
    let old := s.ctx c.toNat
    (old.state = .opened → exec (.ledgerWindowWord0Write h c v) s = .next (({ s.seat h with
      lg.held := trange none s.lg.held (8 * c.toNat) 8 fun _ _ => none,
      lg.reject := if s.lg.reject.valid then { s.lg.reject with overflow := true }
        else { s.lg.reject with context := c, code := 1, valid := true } }).deny h)) ∧
    (old.state ≠ .opened → v.extractLsb' 0 2 = 1 → v &&& ctxReserved 0 = 0 →
      (∀ i, i ∈ [1, 2, 3, 4, 5, 6, 7] → s.ledgWord c.toNat i &&& ctxReserved i = 0) →
      ∃ t, exec (.ledgerWindowWord0Write h c v) s = .next t ∧ t.hp = ((s.seat h).ok h).hp ∧
        t.lg.ctxs = tset {} s.lg.ctxs c.toNat { ctxOfWords (fun w => if w = 0 then v else s.ledgWord c.toNat w) with
          version := old.version + 1, owner := old.owner } ∧
        t.lg.held = trange none s.lg.held (8 * c.toNat) 8 (fun _ _ => none) ∧
        { t with
          hp := s.hp,
          lg := { t.lg with
            ctxs := s.lg.ctxs, held := s.lg.held, heldExp := s.lg.heldExp, heldWin := s.lg.heldWin } } = s))

/-! ### Ranking and delivery (03) -/

/-- A claim of the offered event returns its name, payload, MERGED and REPLACED and makes the target its holder, with its service timer;
without an offer, or at a disabled target, it returns no event; where a delivery agent serves the target it is answered DENY. A complete of
a held CLAIMED event takes it to IDLE and ends its holding; of no event it does nothing; of any other it is a stray, counted and
recorded. -/
def Obligations.ClaimsAndCompletes : Prop :=
  ((∀ (s : State) (h : HpAttr) (n : BitVec 8) (e : Nat), s.Canonical → s.Calm → s.LetIn h → s.gb.enable = false →
    let g := s.target n.toNat
    s.agentAt n.toNat = false → g.enable = true → g.offered = some e → g.front = [e] → g.bands = [] → e < nEntries →
    (s.entry e).state = .offered → (s.side e).placed = some n → (s.side e).holder = none → (s.side e).room = none →
    s.busy e = false →
    ∃ t data, exec (.tgtClaim h n) s = .next t ∧ t.hp = ((s.takeSlot h 1 true).respond h .ok [data]).hp ∧
      data.extractLsb' 0 24 = BitVec.ofNat 24 e ∧ data.extractLsb' 24 36 = (s.entry e).payload ∧
      data.getLsbD 60 = decide ((s.entry e).merges ≠ 0) ∧ data.getLsbD 61 = (s.side e).replaced ∧ data.extractLsb' 62 2 = 0 ∧
      s.EntryTakes t e { s.entry e with state := .claimed } ∧ (t.side e).holder = some n ∧
      t.target n.toNat = { g with front := [], offered := none, held := g.held ++ [⟨e, s.gl.time, g.svcTmo, false⟩] } ∧
      t.rest = ({ s with hp := t.hp } : State).rest) ∧
  (∀ (s : State) (h : HpAttr) (n : BitVec 8), s.Calm → s.LetIn h → s.agentAt n.toNat = false →
    ((s.target n.toNat).enable = false ∨ (s.target n.toNat).offered = none) →
    exec (.tgtClaim h n) s = .next ((s.takeSlot h 1 true).respond h .ok [0xFFFFFF])) ∧
  (∀ (s : State) (h : HpAttr) (n : BitVec 8), s.Calm → s.LetIn h → s.agentAt n.toNat = true →
    exec (.tgtClaim h n) s = .next ((s.takeSlot h 1 true).respond h .deny [0]))) ∧
  (∀ (s : State) (h : HpAttr) (n : BitVec 8) (v : Word) (k : HeldEv), s.Canonical → s.Calm → s.LetIn h → s.gb.enable = false →
    s.agentAt n.toNat = false → s.NoCandidate n.toNat → (s.target n.toNat).held = [k] → k.cand < nEntries →
    v.extractLsb' 24 40 = 0 → v.extractLsb' 0 24 = BitVec.ofNat 24 k.cand → (s.entry k.cand).state = .claimed →
    (s.side k.cand).placed = none → (s.side k.cand).holder = some n → (s.side k.cand).room = none → s.busy k.cand = false →
    (isWired k.cand = false ∨ s.wf.enabled = false) →
    ∃ t, exec (.tgtComplete h n v) s = .next t ∧ t.hp = ((s.seat h).ok h).hp ∧
      s.EntryTakes t k.cand { s.entry k.cand with state := .idle } ∧ (t.side k.cand).holder = none ∧
      t.target n.toNat = { s.target n.toNat with held := [] } ∧ t.rest = ({ s with hp := t.hp } : State).rest) ∧
  (∀ (s : State) (h : HpAttr) (n : BitVec 8) (v : Word), s.Calm → s.LetIn h → s.agentAt n.toNat = false → v = 0xFFFFFF →
    exec (.tgtComplete h n v) s = .next ((s.seat h).ok h)) ∧
  (∀ (s : State) (h : HpAttr) (n : BitVec 8) (v : Word), s.Calm → s.LetIn h → s.agentAt n.toNat = false →
    v.extractLsb' 24 40 = 0 → v ≠ 0xFFFFFF → (s.target n.toNat).held = [] → (s.target n.toNat).stray = false →
    exec (.tgtComplete h n v) s = .next ((({ s.seat h with rn.strayCnt := satInc s.rn.strayCnt }).modTarget n.toNat fun g =>
      { g with stray := true, strayEv := v.extractLsb' 0 17, strayWide := decide (0x1FFFF < (v.extractLsb' 0 24).toNat) }).ok h)) ∧
  (∀ (n : BitVec 8) (v : Word), HostDenies (fun h => .tgtComplete h n v) fun s =>
    s.agentAt n.toNat = true ∨ v.extractLsb' 24 40 ≠ 0)

/-- Target and group registers: the threshold, the enable, the hold limit and the re-offer rule, the group's policy and mask take the
written fields; a threshold raised to the priority of the one offered event withdraws its offer, and counts a displacement. -/
def Obligations.TargetRegisters : Prop :=
  (∀ (n : BitVec 8) (v : Word), HostDoes (fun h => .tgtThresholdWrite h n v) (fun s => s.Canonical ∧ s.NoCandidate n.toNat)
    fun s => s.modTarget n.toNat fun g => { g with threshold := v.extractLsb' 0 12 }) ∧
  (∀ (s : State) (h : HpAttr) (n : BitVec 8) (v : Word) (e : Nat), s.Canonical → s.Calm → s.LetIn h → s.gb.enable = false →
    let g := s.target n.toNat
    g.front = [e] → g.bands = [] → g.offered = some e → g.holdLimit = 0 → e < nEntries → (s.entry e).state = .offered →
    (s.side e).placed = some n → (s.side e).holder = none → (s.side e).room = none → s.busy e = false →
    (s.entry e).priority ≤ v.extractLsb' 0 12 →
    ∃ t, exec (.tgtThresholdWrite h n v) s = .next t ∧ t.hp = ((s.seat h).ok h).hp ∧
      s.EntryTakes t e { s.entry e with state := .queued } ∧
      t.target n.toNat = { g with threshold := v.extractLsb' 0 12, offered := none } ∧ t.rn.displace = satInc s.rn.displace ∧
      t.rest = ({ s with hp := t.hp } : State).rest) ∧
  (∀ (n : BitVec 8) (v : Word), HostDoes (fun h => .tgtCfgWrite h n v)
    (fun s => s.Canonical ∧ s.NoCandidate n.toNat ∧ ∀ p ∈ s.rn.groups, p.2.orphans = [])
    fun s => s.modTarget n.toNat fun g =>
      { g with enable := v.getLsbD 0, holdLimit := v.extractLsb' 1 6, away := v.getLsbD 7 }) ∧
  (∀ (n : BitVec 8) (v : Word), HostDoes (fun h => .rnkGrpCfgWrite h n v)
    (fun s => s.Canonical ∧ (s.group n.toNat).orphans = [])
    fun s => s.modGroup n.toNat fun x =>
      { x with policy := if v.extractLsb' 0 2 = 3 then x.policy else v.extractLsb' 0 2 }) ∧
  (∀ (s : State) (h : HpAttr) (n : BitVec 8) (k : BitVec 2) (v : Word), s.Canonical → s.Calm → s.LetIn h →
    (s.group n.toNat).orphans = [] →
    ∃ m : BitVec 256, exec (.rnkGrpMaskWrite h n k v) s = .next (((s.seat h).modGroup n.toNat fun x => { x with mask := m }).ok h) ∧
      ∀ i, i < 256 → m.getLsbD i = if i / 64 = k.toNat then v.getLsbD (i % 64) else (s.group n.toNat).mask.getLsbD i)

/-- A held placement whose sources' earlier postings have settled goes to its target; one that must wait stays. An overdue offer leaves
its record and is counted, or is held where its queue is full; an overdue claim likewise; a held timeout fires once there is room, or
is forgotten where its offer or claim has ended.
A command that cannot occur in a state changes nothing there: this model's choice (notes/assumptions/1.md). -/
def Obligations.PlacementsAndTimeouts : Prop :=
  (∀ (s : State) (e : BitVec 17) (reqs : List (Source × Nat)), s.Canonical → s.Calm → s.live = true →
    s.rn.heldPl = [⟨e.toNat, reqs⟩] → (∀ r ∈ reqs, s.unsettledBefore r.1 r.2 = false) → (s.entry e.toNat).tmode = 0 →
    (s.entry e.toNat).ctxv = false →
    let n := (s.entry e.toNat).target.toNat % 256
    s.NoCandidate n → s.enabled n = false →
    ∃ t, exec (.heldPlacementRelease e) s = .next t ∧ t.rn.heldPl = [] ∧ (t.target n).front = [e.toNat] ∧
      (t.target n).offered = none ∧ (t.side e.toNat).placed = some (BitVec.ofNat 8 n) ∧ t.lt.entries = s.lt.entries ∧
      t.rest = s.rest) ∧
  (∀ e : BitVec 17, CoreDoes (.heldPlacementRelease e) (fun s => s.placementReady e.toNat = false) id) ∧
  (∀ (s : State) (n : BitVec 8) (e : Nat), s.mirrorOn = false → s.live = true →
    let g := s.target n.toNat
    g.offered = some e → e < nEntries → g.offerLim ≠ 0 → 16 * g.offerLim.toNat < s.age g.offerAt → s.busy e = false →
    let r : TmoRec := ⟨BitVec.ofNat 17 e, false, n, (s.entry e).tmode = 1, false, s.tmoAge g.offerAt⟩
    (s.rn.offerQ.length < 128 → ∃ t, exec (.offerTmoExpiry n) s = .next t ∧ t.rn.offerQ = s.rn.offerQ ++ [r] ∧
      t.rn.offerCnt = satInc s.rn.offerCnt ∧
      t.rest = ({ s with rn.offerQ := t.rn.offerQ, rn.offerCnt := t.rn.offerCnt } : State).rest) ∧
    (128 ≤ s.rn.offerQ.length → s.Calm → (⟨e, n, g.offerAt⟩ : HeldTmo) ∉ s.rn.heldOff →
      exec (.offerTmoExpiry n) s = .next { s with rn.heldOff := s.rn.heldOff ++ [⟨e, n, g.offerAt⟩] })) ∧
  (∀ (s : State) (e : BitVec 17) (n : BitVec 8) (k : HeldEv), s.mirrorOn = false → s.live = true →
    (s.side e.toNat).holder = some n → (s.target n.toNat).held.find? (fun x => x.cand = e.toNat) = some k → k.limit ≠ 0 →
    k.fired = false → 1024 * k.limit.toNat < s.age k.since →
    let x := s.entry e.toNat
    (s.rn.svcQ.length < 128 → ∃ t, exec (.serviceTmoExpiry e) s = .next t ∧
      t.rn.svcQ = s.rn.svcQ ++ [⟨e, true, n, x.tmode = 1, x.state = .claimedRepost, s.tmoAge k.since⟩] ∧
      t.rn.svcCnt = satInc s.rn.svcCnt ∧
      t.rest = ({ s with rn.svcQ := t.rn.svcQ, rn.svcCnt := t.rn.svcCnt } : State).rest) ∧
    (128 ≤ s.rn.svcQ.length → s.Calm → (⟨e.toNat, n, k.since⟩ : HeldTmo) ∉ s.rn.heldSvc →
      exec (.serviceTmoExpiry e) s = .next { s with rn.heldSvc := s.rn.heldSvc ++ [⟨e.toNat, n, k.since⟩] })) ∧
  (∀ (s : State) (k : HeldTmo) (l : List HeldTmo), s.mirrorOn = false → s.live = true → s.rn.heldOff = k :: l →
    s.rn.offerQ.length < 128 → s.busy k.event = false →
    ((s.target k.target.toNat).offered = some k.event → (s.target k.target.toNat).offerAt = k.since →
      ∃ t r, exec (.timeoutHeldRelease false) s = .next t ∧ t.rn.heldOff = l ∧ t.rn.offerQ = s.rn.offerQ ++ [r] ∧
        r.event = BitVec.ofNat 17 k.event ∧ r.target = k.target ∧ r.service = false ∧ t.rn.offerCnt = satInc s.rn.offerCnt) ∧
    ((s.target k.target.toNat).offered ≠ some k.event → s.Calm →
      exec (.timeoutHeldRelease false) s = .next { s with rn.heldOff := l })) ∧
  (∀ (s : State) (k : HeldTmo) (l : List HeldTmo), s.mirrorOn = false → s.live = true → s.rn.heldSvc = k :: l →
    s.rn.svcQ.length < 128 → (∃ h ∈ (s.target k.target.toNat).held, h.cand = k.event ∧ h.since = k.since ∧ h.fired = false) →
    ∃ t r, exec (.timeoutHeldRelease true) s = .next t ∧ t.rn.heldSvc = l ∧ t.rn.svcQ = s.rn.svcQ ++ [r] ∧
      r.event = BitVec.ofNat 17 k.event ∧ r.target = k.target ∧ r.service = true ∧ t.rn.svcCnt = satInc s.rn.svcCnt)

/-! ### The call list, the curfew unit and noise (04, 08) -/

/-- The last boost step of a context raises its FLOOR and ends its boost; a reached deadline sets EXPIRED and leaves its record; a window
that ends clears KEY_ONE and leaves its record; each for a context that is alone on the call list, by its own fields, and for every context
that fires; a held firing leaves its record once there is room. A context that does not fire is left alone.
A command that cannot occur in a state changes nothing there: this model's choice (notes/assumptions/1.md). -/
def Obligations.CallListFirings : Prop :=
  (∀ (s : State) (c : W12) (j : Nat), s.Canonical → s.mirrorOn = false → s.live = true → s.OnlyContext c.toNat →
    let x := s.ctx c.toNat
    x.dlv = true → x.boostEnd = false → (x.expired = true ∨ reached s.now x.deadline = false) → x.keyOne = false →
    s.stepFrom x.curve.toNat x.step.toNat = some j → reached s.now (x.deadline - (s.curve x.curve.toNat j).slack.setWidth 48) = true →
    s.stepFrom x.curve.toNat (j + 1) = none → (∀ e ∈ s.chain c.toNat, s.busy e = false) →
    ∃ t, exec (.boostStep c) s = .next t ∧
      t.lg.ctxs = [(c.toNat, { x with
        floor := if x.floor < (s.curve x.curve.toNat j).floor then (s.curve x.curve.toNat j).floor else x.floor,
        step := BitVec.ofNat 3 (j + 1), boostEnd := true, version := x.version + 1 })]) ∧
  (∀ (s : State) (c : W12), s.Canonical → s.mirrorOn = false → s.live = true → s.OnlyContext c.toNat →
    let x := s.ctx c.toNat
    x.dlv = true → x.boostEnd = true → x.expired = false → reached s.now x.deadline = true → x.keyOne = false →
    s.lg.expQ.length < 256 → s.lg.heldExp = [] →
    ∃ t, exec (.deadlineReached c) s = .next t ∧
      t.lg.ctxs = [(c.toNat, { x with expired := true, version := x.version + 1 })] ∧
      t.lg.expQ = s.lg.expQ ++ [⟨c, x.epoch, x.count, false, false, x.armed, x.keysat⟩]) ∧
  (∀ (s : State) (c : W12), s.Canonical → s.mirrorOn = false → s.live = true → s.OnlyContext c.toNat →
    let x := s.ctx c.toNat
    let w := s.keyWindow x.winsel.toNat
    x.dlv = false → x.keyOne = true → w ≠ 0 → reached s.now (x.keyFirst + BitVec.ofNat 48 (w.toNat * 1024)) = true →
    s.lg.keyQ.length < 64 → s.lg.heldWin = [] →
    ∃ t, exec (.twokeyWindowEnd c) s = .next t ∧
      t.lg.ctxs = [(c.toNat, { x with keyOne := false, version := x.version + 1 })] ∧
      t.lg.keyQ = s.lg.keyQ ++ [⟨c, x.epoch, x.count, false, true, x.armed, x.keysat⟩]) ∧
  (∀ (s : State) (c : W12) (j : Nat), s.Calm → s.live = true → s.fires c.toNat .boost = true → s.chain c.toNat = [] →
    let x := s.ctx c.toNat
    s.stepFrom x.curve.toNat x.step.toNat = some j → reached s.now (s.stepInstant x j) = true →
    s.stepFrom x.curve.toNat (j + 1) = none →
    ∃ t, exec (.boostStep c) s = .next t ∧
      t.lg.ctxs = tset {} s.lg.ctxs c.toNat { x with
        floor := if x.floor < (s.curve x.curve.toNat j).floor then (s.curve x.curve.toNat j).floor else x.floor,
        step := BitVec.ofNat 3 (j + 1), boostEnd := true, version := x.version + 1 } ∧
      { t with lg := { t.lg with ctxs := s.lg.ctxs, heldExp := s.lg.heldExp, heldWin := s.lg.heldWin } } = s) ∧
  (∀ c : W12, CoreDoes (.boostStep c) (fun s => s.fires c.toNat .boost = false) id) ∧
  (∀ (s : State) (c : W12), s.mirrorOn = false → s.live = true → s.fires c.toNat .expiry = true →
    let x := s.ctx c.toNat
    (s.expFull = false → ∃ t, exec (.deadlineReached c) s = .next t ∧
      t.lg = { s.lg with
        ctxs := tset {} s.lg.ctxs c.toNat { x with expired := true, version := x.version + 1 },
        expQ := s.lg.expQ ++ [⟨c, x.epoch, x.count, false, false, x.armed, x.keysat⟩],
        heldExp := s.lg.heldExp.filter (· ≠ c.toNat),
        heldWin := if x.keyOne then s.lg.heldWin else s.lg.heldWin.filter (· ≠ (c.toNat, false)) } ∧
      t.rest = ({ s with lg := t.lg } : State).rest) ∧
    (256 ≤ s.lg.expQ.length → s.Calm → c.toNat ∉ s.lg.heldExp →
      exec (.deadlineReached c) s = .next { s with lg.heldExp := s.lg.heldExp ++ [c.toNat] })) ∧
  (∀ c : W12, CoreDoes (.deadlineReached c) (fun s => s.fires c.toNat .expiry = false) id) ∧
  (∀ (s : State) (c : W12), s.mirrorOn = false → s.live = true → s.fires c.toNat .window = true → s.keyFull = false →
    let x := s.ctx c.toNat
    ∃ t, exec (.twokeyWindowEnd c) s = .next t ∧
      t.lg.ctxs = tset {} s.lg.ctxs c.toNat { x with keyOne := false, version := x.version + 1 } ∧
      t.lg.keyQ = s.lg.keyQ ++ [⟨c, x.epoch, x.count, false, true, x.armed, x.keysat⟩] ∧
      t.rest = ({ s with lg := { s.lg with
        ctxs := t.lg.ctxs, keyQ := t.lg.keyQ, heldExp := t.lg.heldExp, heldWin := t.lg.heldWin } } : State).rest) ∧
  (∀ c : W12, CoreDoes (.twokeyWindowEnd c) (fun s => s.fires c.toNat .window = false) id) ∧
  (∀ (s : State) (c : Nat) (l : List Nat), s.mirrorOn = false → s.live = true → s.lg.heldExp = c :: l →
    (s.fn (s.ctx c).owner.toNat).state = .inService → s.lg.expQ.length < 256 → s.ctxLock c = none → s.ctxWait c = false →
    let x := s.ctx c
    x.expired = false →
    ∃ t, exec (.ledgerFiringHeldRelease false) s = .next t ∧
      t.lg.ctxs = tset {} s.lg.ctxs c { x with expired := true, version := x.version + 1 } ∧
      t.lg.expQ = s.lg.expQ ++ [⟨BitVec.ofNat 12 c, x.epoch, x.count, false, false, x.armed, x.keysat⟩] ∧
      t.lg.heldExp = l.filter (· ≠ c)) ∧
  (∀ (s : State) (c : Nat) (l : List (Nat × Bool)), s.mirrorOn = false → s.live = true → s.lg.keyQ.length < 64 →
    let x := s.ctx c
    let r : LedRec := ⟨BitVec.ofNat 12 c, x.epoch, x.count, false, true, x.armed, x.keysat⟩
    (s.lg.heldWin = (c, true) :: l → ∃ t, exec (.ledgerFiringHeldRelease true) s = .next t ∧
      t.lg = { s.lg with heldWin := l, keyQ := s.lg.keyQ ++ [r] } ∧ t.rest = ({ s with lg := t.lg } : State).rest) ∧
    (s.lg.heldWin = (c, false) :: l → (s.fn x.owner.toNat).state = .inService → s.ctxLock c = none → s.ctxWait c = false →
      ∃ t, exec (.ledgerFiringHeldRelease true) s = .next t ∧
        t.lg.ctxs = tset {} s.lg.ctxs c { x with keyOne := false, version := x.version + 1 } ∧ t.lg.keyQ = s.lg.keyQ ++ [r] ∧
        t.lg.heldWin = l.filter (· ≠ (c, false))))

/-- The grid instant of a curfew class lies on its grid, not before the minimum hold and less than one quantum after it. A held entry
whose release instant is reached first becomes POSTED, is counted, and leaves the curfew unit; one that is not due stays. A jitter handshake
that the block wants adds its word to the pool; a fourth equal word fails the stream, empties the pool and marks every hold; so does a rise
of RNG_FAIL; a fall of RNG_READY marks the holds; the other levels only set their bits. NOISE_LOST clears only while the source is ready and
does not fail. A command that cannot occur in a state changes nothing there: this model's choice (notes/assumptions/1.md). -/
def Obligations.CurfewAndNoise : Prop :=
  ((∀ (c : CurfewClass) (p : Instant), c.grid p % 2 ^ c.qlog.toNat = 0 ∧ p.toNat + c.minHold.toNat ≤ c.grid p ∧
    c.grid p < p.toNat + c.minHold.toNat + 2 ^ c.qlog.toNat) ∧
  (∀ (s : State) (e : BitVec 17) (k : Hold), s.Alone e.toNat → s.live = true → s.curfewDue e.toNat = some k →
    (s.entry e.toNat).state = .heldCurfew →
    ∃ t, exec (.curfewRelease e) s = .next t ∧ s.EntryTakes t e.toNat { s.entry e.toNat with state := .posted } ∧
      t.cf.holds = s.cf.holds.filter (fun h => h.event ≠ e.toNat) ∧
      t.rest = ({ s with
        cf.released := satInc s.cf.released,
        cf.fallRel := if k.mark then satInc s.cf.fallRel else s.cf.fallRel } : State).rest) ∧
  (∀ e : BitVec 17, CoreDoes (.curfewRelease e) (fun s => s.curfewDue e.toNat = none) id)) ∧
  (∀ v : BitVec 32, LineDoes (.rngJitterHandshake v)
    (fun s => s.live = true ∧ s.jreqUp = true ∧ s.cf.jdrop = false ∧ s.fallback = false ∧ s.cf.pool.length < 16 ∧
      (v ≠ s.cf.lastWord ∨ s.cf.equalRun = 0))
    fun s => { s with
      cf.jreq := false, cf.jack := true, cf.lastWord := v, cf.equalRun := 1, cf.pool := s.cf.pool ++ [v] }) ∧
  (∀ v : BitVec 32, LineDoes (.rngJitterHandshake v) (fun s => s.jreqUp = false) id) ∧
  (∀ v : BitVec 32, LineDoes (.rngJitterHandshake v)
    (fun s => s.jreqUp = true ∧ (s.live = false ∨ s.fallback = true ∨ s.cf.jdrop = true))
    fun s => { s with cf.jreq := false, cf.jdrop := false, cf.jack := true }) ∧
  (∀ (s : State) (v : BitVec 32), s.mirrorOn = false → s.live = true → s.np.porst = true → s.jreqUp = true → s.cf.jdrop = false →
    s.fallback = false → v = s.cf.lastWord → s.cf.equalRun = 3 →
    ∃ t, exec (.rngJitterHandshake v) s = .next t ∧ t.cf.noiseLost = true ∧ t.cf.pool = [] ∧ (∀ h ∈ t.cf.holds, h.mark = true) ∧
      t.rest = ({ s with
        cf.jreq := false, cf.jack := true, cf.equalRun := 0, cf.noiseLost := true, cf.repeats := satInc s.cf.repeats } : State).rest) ∧
  (∀ s : State, s.mirrorOn = false → s.portUp = true → s.awake = true → s.cf.fail = false →
    ∃ t, exec .rngFailRise s = .next t ∧ t.cf.pool = [] ∧ (∀ h ∈ t.cf.holds, h.mark = true) ∧
      t.rest = ({ s with
        cf.jreq := s.jreqUp, cf.jdrop := s.jreqUp, cf.kreq := s.kreqUp, cf.kdrop := s.cf.kdrop || s.kreqUp, cf.fail := true,
        cf.noiseLost := true, cf.equalRun := 0 } : State).rest) ∧
  LineDoes .rngFailFall (fun _ => True) (fun s => { s with cf.fail := false }) ∧
  (∀ s : State, s.mirrorOn = false → s.portUp = true → s.awake = true → s.cf.ready = false →
    ∃ t, exec .rngReadyRise s = .next t ∧ t.rest = ({ s with cf.ready := true } : State).rest) ∧
  LineDoes .rngReadyFall (fun s => s.cf.ready = true) (fun s => { s with
    cf.jreq := s.jreqUp, cf.kreq := s.kreqUp, cf.ready := false, cf.holds := s.cf.holds.map fun h => { h with mark := true } }) ∧
  (∀ s : State, exec .rngJackFall s = .next { s with cf.jack := false }) ∧
  HostDoes .noiseLostClear (fun s => s.cf.ready = true ∧ s.cf.fail = false) (fun s => { s with cf.noiseLost := false }) ∧
  HostDoes .noiseLostClear (fun s => s.cf.ready = false ∨ s.cf.fail = true) (fun s => s)

/-! ### Porters, arbiters and the store (05) -/

/-- A run queue takes the head of its bank's dispatch list; a dispatch read of a task begins a run whose twelve first registers describe
its entry, and sets RUN; an idle Porter in the fallback steals the newest task of its victim. -/
def Obligations.TasksAndDispatch : Prop :=
  (∀ (s : State) (k : BitVec 4) (j b e : Nat), s.Canonical → s.Calm → s.live = true → s.adopter k.toNat = some j →
    s.nextBank k.toNat = some (b, e) → s.gl.hold = false → (s.queue j).tasks.length < 64 →
    ∃ t, exec (.runQueueTake k) s = .next t ∧ t.dlist b = (s.dlist b).drop 1 ∧
      (t.queue j).tasks = (s.queue j).tasks ++ [e] ∧ (t.queue j).ticket = (s.queue j).ticket + 1 ∧ (t.side e).task = true ∧
      { t with
        lt := { t.lt with dispatch := s.lt.dispatch, side := s.lt.side }, pa := { t.pa with queues := s.pa.queues },
        np := { t.np with pswEn := s.np.pswEn, ungateDue := s.np.ungateDue, idleSince := s.np.idleSince } } = s) ∧
  (∀ k : BitVec 4, CoreDoes (.runQueueTake k) (fun s => s.gl.hold = true) id) ∧
  (∀ (s : State) (r : RunRef) (e : Nat), s.Canonical → s.Calm → s.live = true → r.wf = true → s.mayBegin r = true →
    (s.runPorter r).task r.ctx = some e → e < nEntries → s.busy e = false → s.dispatchable e = true →
    let x := s.entry e
    s.runsOf x.function.toNat < s.shareOf x.function.toNat →
    s.copyBad r.cluster.toNat x.entryPc.toNat = false → (s.copyWord r.cluster.toNat x.entryPc.toNat).toNat / 2 ^ 30 = 0x3D →
    ∃ t y, exec (.dispatchRead r) s = .next t ∧ t.run r = some y ∧ y.event = e ∧ y.fn = x.function ∧ y.pc = x.entryPc ∧
      y.phase = .running ∧ y.steps = 0 ∧ y.budget = s.gl.stepmax.toNat ∧ y.stack = [] ∧ y.effects = [] ∧
      y.order = s.pa.order ∧ y.reads.map (·.item) = [.entry e] ∧
      (y.w 1 ++ y.w 0 : BitVec 24).toNat = e ∧ (y.w 4 ++ y.w 3 ++ y.w 2 : BitVec 36) = x.payload ∧ y.w 5 = x.priority ∧
      y.w 6 = x.tmode ++ x.target ∧ y.w 7 = x.context ∧ y.w 8 = ({ x with run := true } : Entry).low ∧
      y.w 9 = x.function.setWidth 12 ∧ y.w 10 = (x.cls ++ x.merges : BitVec 7).setWidth 12 ∧ y.w 11 = x.version + 1 ∧
      s.EntryTakes t e { x with run := true } ∧ t.pa.order = s.pa.order + 1 ∧ (t.runPorter r).task r.ctx = none ∧
      (t.runPorter r).exec = r.ctx ∧
      { t with
        lt := { t.lt with entries := s.lt.entries, side := s.lt.side, dispatch := s.lt.dispatch },
        fm := { t.fm with fns := s.fm.fns },
        pa := { t.pa with runs := s.pa.runs, porters := s.pa.porters, order := s.pa.order },
        np := { t.np with idleSince := s.np.idleSince } } = s) ∧
  (∀ (s : State) (r : RunRef) (j e : Nat), s.Canonical → s.Calm → s.live = true → r.wf = true → s.mayBegin r = true →
    (s.runPorter r).task0 = none → (s.runPorter r).task1 = none → (s.queue r.cluster.toNat).tasks = [] → s.fallback = true →
    s.victim r.cluster.toNat (s.runPorter r).stealCtr.toNat = some j → (s.queue j).tasks.getLast? = some e →
    ∃ t, exec (.workSteal r) s = .next t ∧ (t.queue j).tasks = (s.queue j).tasks.dropLast ∧
      (t.runPorter r).task r.ctx = some e ∧ (t.runPorter r).stealCtr = (s.runPorter r).stealCtr + 1 ∧
      t.pa.stealCnt = satInc s.pa.stealCnt ∧
      { t with
        pa := { t.pa with queues := s.pa.queues, porters := s.pa.porters, stealCnt := s.pa.stealCnt },
        np := { t.np with idleSince := s.np.idleSince } } = s)

/-- A bank arbiter grants the slot that comes before all others, moves it to the end of its ranks, and the others wait, each with its
turn; a request that waits is granted at a later boundary, and where none is present the grant ends; a grant that lasts too long is cut off
and asks again; a wait that lasts too long is reported once; a Porter returns to the context it left; ARB_CFG takes its fields. -/
def Obligations.BankArbiters : Prop :=
  (∀ (s : State) (a : BitVec 6) (reqs : List ArbReq) (q : ArbReq), s.Canonical → s.Calm → s.live = true →
    (Instr.arbGrant a reqs).wf = true → (∀ m ∈ reqs, m.run = none) → (reqs.map (·.slot)).Nodup → (∀ x ∈ s.ab.waits, x.arb ≠ a) →
    q ∈ reqs → (∀ m ∈ reqs, m.slot ≠ q.slot → s.slotBefore a.toNat q.slot.toNat m.slot.toNat = true) →
    ∃ t, exec (.arbGrant a reqs) s = .next t ∧ t.ranks a.toNat = (s.ranks a.toNat).filter (· ≠ q.slot.toNat) ++ [q.slot.toNat] ∧
      tget none t.ab.holds a.toNat = some ⟨q.slot, none, q.len, s.gl.time⟩ ∧
      t.ab.waits = s.ab.waits ++ (reqs.filter (·.slot ≠ q.slot)).map (fun m => ⟨a, m.slot, none, m.len, s.gl.time, false,
        BitVec.ofNat 5 (reqs.countP fun n => n.slot ≠ q.slot ∧ n.slot ≠ m.slot ∧
          s.slotBefore a.toNat n.slot.toNat m.slot.toNat)⟩) ∧
      { t with ab := { t.ab with ranks := s.ab.ranks, holds := s.ab.holds, waits := s.ab.waits } } = s) ∧
  (∀ (s : State) (x : ArbWait), s.Canonical → s.Calm → s.live = true → x.arb.toNat < 40 → x.slot.toNat < 24 → x.run = none →
    s.ab.waits = [x] →
    ∃ t, exec (.arbGrant x.arb []) s = .next t ∧ tget none t.ab.holds x.arb.toNat = some ⟨x.slot, none, x.len, s.gl.time⟩ ∧
      t.ab.waits = [] ∧ t.ranks x.arb.toNat = (s.ranks x.arb.toNat).filter (· ≠ x.slot.toNat) ++ [x.slot.toNat] ∧
      { t with ab := { t.ab with ranks := s.ab.ranks, holds := s.ab.holds, waits := s.ab.waits } } = s) ∧
  (∀ a : BitVec 6, a.toNat < 40 → CoreDoes (.arbGrant a []) (fun s => ∀ x ∈ s.ab.waits, x.arb ≠ a)
    fun s => { s with ab.holds := tset none s.ab.holds a.toNat none }) ∧
  (∀ (s : State) (k : BitVec 4) (p : BitVec 3) (c : BitVec 1), s.Calm → s.live = true → p.toNat < 5 →
    (s.porter k.toNat p.toNat).switched = some c → s.askedFor ⟨k, p, c⟩ = false → (s.run ⟨k, p, c⟩).isSome = true →
    exec (.contextReturn k p) s = .next (s.modPorter k.toNat p.toNat fun y => { y with exec := c, switched := none })) ∧
  (∀ (s : State) (a : BitVec 6) (h : ArbHold), s.mirrorOn = false → s.live = true → a.toNat < 40 →
    tget none s.ab.holds a.toNat = some h → s.ab.holdMax ≠ 0 → Nat.max 16 s.ab.holdMax.toNat < s.age h.since → s.ab.logValid = false →
    ∃ t, exec (.holdMaxExpiry a) s = .next t ∧ t.rest = ({ s with ab := { s.ab with
      holds := tset none s.ab.holds a.toNat none, cutoff := satInc s.ab.cutoff,
      waits := s.ab.waits ++ [⟨a, h.slot, h.run, h.len, s.gl.time, false, 23⟩],
      logArb := a, logSlot := h.slot, logKind := false, logValid := true } } : State).rest) ∧
  (∀ (s : State) (w : ArbWait), s.mirrorOn = false → s.live = true → w.arb.toNat < 40 → w.slot.toNat < 24 →
    s.ab.waits = [w] → w.reported = false → s.ab.starveNs ≠ 0 → s.ab.starveNs.toNat < s.age w.since → s.ab.logValid = false →
    ∃ t, exec (.starveLimitExpiry w.arb w.slot) s = .next t ∧ t.rest = ({ s with ab := { s.ab with
      starve := satInc s.ab.starve, waits := [{ w with reported := true }],
      logArb := w.arb, logSlot := w.slot, logKind := true, logValid := true } } : State).rest) ∧
  (∀ v : Word, HostDoes (fun h => .arbCfgWrite h v) (fun s => s.ab.waits = [])
    fun s => { s with ab.holdMax := v.extractLsb' 0 12, ab.starveNs := v.extractLsb' 12 20 })

/-- A Porter that fails a check or its watchdog is FAILED, and the first spare of its cluster takes its place and its tasks; one that is
not active is left alone. The pace registers keep the last window's count and its least and greatest since the last RESTART. SELF_TRAP
clears with TRAPPED of both trap entries.
A command that cannot occur in a state changes nothing there: this model's choice (notes/assumptions/1.md). -/
def Obligations.PorterFailuresAndPace : Prop :=
  (∀ (s : State) (k : BitVec 4) (p : BitVec 3) (q : Nat) (c : Instr), s.Canonical → s.mirrorOn = false → s.NoneWaits →
    s.live = true → p.toNat < 5 → (c = .porterWatchdogExpiry k p ∨ ∃ kind, c = .porterCheckFail k p kind) →
    (s.porter k.toNat p.toNat).state = .active → s.run ⟨k, p, 0⟩ = none → s.run ⟨k, p, 1⟩ = none → q < 5 →
    (s.porter k.toNat q).state = .spare → (∀ i, i < q → (s.porter k.toNat i).state ≠ .spare) →
    let old := s.porter k.toNat p.toNat
    ∃ t, exec c s = .next t ∧ (t.porter k.toNat p.toNat).state = .failed ∧
      t.porter k.toNat q = { s.porter k.toNat q with
        state := .active, exec := old.exec, task0 := old.task0, task1 := old.task1, named := old.named } ∧
      (∀ j, j ≠ 5 * k.toNat + p.toNat → j ≠ 5 * k.toNat + q → tget {} t.pa.porters j = tget {} s.pa.porters j) ∧
      t.rest = ({ s with pa.porters := t.pa.porters } : State).rest) ∧
  (∀ (k : BitVec 4) (p : BitVec 3), p.toNat < 5 →
    CoreDoes (.porterWatchdogExpiry k p) (fun s => (s.porter k.toNat p.toNat).state ≠ .active) id ∧
    ∀ kind, CoreDoes (.porterCheckFail k p kind) (fun s => (s.porter k.toNat p.toNat).state ≠ .active) id) ∧
  (∀ (s : State) (n : W12), s.portUp = true → s.awake = true → s.gl.tbSeen = true →
    exec (.paceWindowEnd n) s = .next { s with
      pa.pace := n, pa.paceValid := true, pa.paceNew := false,
      pa.paceMin := if s.pa.paceNew = true ∨ n < s.pa.paceMin then n else s.pa.paceMin,
      pa.paceMax := if s.pa.paceNew = true ∨ s.pa.paceMax < n then n else s.pa.paceMax }) ∧
  HostDoes .paceRestart (fun _ => True) (fun s => { s with pa.paceNew := true }) ∧
  (∀ (s : State) (h : HpAttr), s.Canonical → s.Calm → s.LetIn h → s.busy 5 = false → s.busy 6 = false →
    ∃ t, exec (.selfTrapClear h) s = .next t ∧ t.pa.selfTrap = false ∧ (t.side 5).trapped = false ∧ (t.side 6).trapped = false ∧
      t.hp = ((s.seat h).ok h).hp ∧ t.lt.entries = s.lt.entries ∧
      t.rest = ({ s with pa.selfTrap := false, hp := t.hp } : State).rest)

/-- A store word is written in every copy that has power until the store is sealed, and not after; SEAL begins the check that seals it under
its identity; a scrub read counts a corrected word and starts the reload of a bad copy from one that reads the word, and a word that is
uncorrectable in every copy is lost, which is logged; a reload that ends makes the copy what its source is. -/
def Obligations.ItineraryStore : Prop :=
  (∀ (i : W12) (v : Word), HostDoes (fun h => .itStoreWrite h i v)
    (fun s => s.st.sealed = false ∧ s.st.sealing = false ∧ s.st.own = [] ∧ ∀ j, j < 16 → s.noCopy j = false)
    fun s => { s with
      st.words := tset 0 s.st.words i.toNat (v.extractLsb' 0 36), st.bad := s.st.bad.filter fun b => b.2 ≠ i.toNat }) ∧
  (∀ (s : State) (h : HpAttr) (i : W12) (v : Word), s.Canonical → s.Calm → s.LetIn h → s.st.sealed = false → s.st.sealing = false →
    ∃ t, exec (.itStoreWrite h i v) s = .next t ∧ ∀ j k, j < 16 → k < 4096 →
      t.copyWord j k = if k = i.toNat ∧ s.noCopy j = false then v.extractLsb' 0 36 else s.copyWord j k) ∧
  (∀ (i : W12) (v : Word), HostDoes (fun h => .itStoreWrite h i v) (fun s => s.st.sealed = true ∨ s.st.sealing = true) id) ∧
  HostDoes .seal (fun s => s.st.sealed = false ∧ s.st.sealing = false) (fun s => { s with st.sealing := true }) ∧
  HostDoes .seal (fun s => s.st.sealed = true ∨ s.st.sealing = true) id ∧
  CoreDoes .sealComplete (fun s => s.st.sealing = true ∧ s.st.bad = [] ∧ s.st.own = [] ∧ s.st.reloading = 0 ∧ s.cu.pairEn = false)
    (fun s => { s with st.sealing := false, st.sealed := true, st.ident := digest48 s.identBytes }) ∧
  (∀ (s : State) (k : BitVec 4) (i : W12), s.mirrorOn = false → s.live = true → bit s.st.storeOk k.toNat = true →
    s.noCopy k.toNat = false →
    (∃ t, exec (.storeScrub k i false) s = .next t ∧ t.er.corrected = satInc s.er.corrected ∧
      t.rest = ({ s with er.corrected := satInc s.er.corrected } : State).rest) ∧
    (∀ j, bit s.st.reloading k.toNat = false → s.copyBad k.toNat i.toNat = true → s.reloadSource k.toNat i.toNat = some j →
      ∃ t, exec (.storeScrub k i true) s = .next t ∧ bit t.st.reloading k.toNat = true ∧ bit t.st.storeOk k.toNat = false ∧
        t.st.words = s.st.words ∧ t.er.corrected = satInc s.er.corrected ∧
        t.rest = ({ s with
          er.corrected := satInc s.er.corrected,
          st := { s.st with reloading := t.st.reloading, storeOk := t.st.storeOk, reloadSrc := t.st.reloadSrc } } : State).rest) ∧
    (s.st.lost = false → s.er.valid = false → bit s.st.reloading k.toNat = false → s.copyBad k.toNat i.toNat = false →
      (∀ j, j < 16 → j ≠ k.toNat → s.copyBad j i.toNat = true) →
      ∃ t, exec (.storeScrub k i true) s = .next t ∧ t.st = { s.st with
          bad := s.st.bad ++ [(k.toNat, i.toNat)], lost := true, lostWord := i } ∧
        t.er.uncorr = satInc s.er.uncorr ∧ t.er.array = 5 ∧ t.er.outcome = 3 ∧ t.er.valid = true ∧ t.er.overflow = s.er.overflow)) ∧
  (∀ k : BitVec 4, CoreDoes (.storeReloadComplete k)
    (fun s => bit s.st.reloading k.toNat = true ∧ s.sourceOf k.toNat ≠ k.toNat ∧ s.st.own = [] ∧ s.pa.runs = [] ∧
      ∀ n, n < 16 → n ≠ k.toNat → bit s.st.reloading n = false)
    fun s => { s with
      st.reloading := setBit s.st.reloading k.toNat false, st.storeOk := setBit s.st.storeOk k.toNat true,
      st.reloadSrc := tset 0 s.st.reloadSrc k.toNat 0,
      st.bad := (s.st.bad.filter fun b => b.1 ≠ k.toNat) ++
        (s.st.bad.filter fun b => b.1 = s.sourceOf k.toNat).map fun b => (k.toNat, b.2) })

/-! ### Functions (09) -/

/-- CREATE gives an ABSENT function its ranges, its arguments and a new generation, and its entries and contexts their reset values;
MODIFY changes the arguments of one in service; a command that finds another under way is refused. -/
def Obligations.FunctionsAreMade : Prop :=
  (∀ (s : State) (h : HpAttr) (fn : BitVec 10) (a b c d : Nat), s.Canonical → s.Calm → s.LetIn h → s.fm.busy = false →
    s.st.sealed = true → s.cu.pairEn = false → fn ≠ 0 → fn.toNat ≤ 512 → (s.fn fn.toNat).state = .absent →
    s.badArgs true fn.toNat = false → s.placeRanges = .ok [a, b, c, d] → s.otherShares fn.toNat + s.argShare ≤ 112 →
    s.lg.locks = [] → a < 507 → b < 256 → c < 1024 → d < 2048 →
    let x := s.fn fn.toNat
    let ev := 0x440 + 256 * a
    let evN := 256 * (s.fm.arg0.extractLsb' 0 9).toNat
    (∀ e, ev ≤ e → e < ev + evN → s.Unplaced e) →
    ∃ t, exec (.create h fn) s = .next t ∧ t.hp = ((s.seat h).ok h).hp ∧
      t.fn fn.toNat = { t.fn fn.toNat with
        state := .inService, gen := x.gen + 1, lodgBase := BitVec.ofNat 9 a, lodgN := s.fm.arg0.extractLsb' 0 9,
        ledgBase := BitVec.ofNat 8 b, ledgN := s.fm.arg0.extractLsb' 19 9, nqBase := BitVec.ofNat 10 c,
        nqN := s.fm.arg1.extractLsb' 0 7, vecBase := BitVec.ofNat 11 d, vecN := s.fm.arg1.extractLsb' 18 9,
        priCeil := s.fm.arg2.extractLsb' 0 12, share := s.fm.arg2.extractLsb' 12 8, user := s.fm.arg2.extractLsb' 20 36,
        index := s.gl.index, queues := [], vectors := [] } ∧
      (∀ e, ev ≤ e → e < ev + evN → t.entry e = { function := fn, version := (s.entry e).version + 1 }) ∧
      (∀ e, e < ev ∨ ev + evN ≤ e → t.entry e = s.entry e) ∧
      (∀ i, i < 16 * (s.fm.arg0.extractLsb' 19 9).toNat →
        t.ctx (16 * b + i) = { owner := fn, version := (s.ctx (16 * b + i)).version + 1 }) ∧
      t.fm.code = 0 ∧ t.fm.resFn = fn ∧ t.fm.valid = true ∧ t.fm.busy = false ∧ t.fm.refused = false) ∧
  (∀ (s : State) (h : HpAttr) (fn : BitVec 10), s.Calm → s.LetIn h → s.fm.busy = false → s.st.sealed = true →
    s.cu.pairEn = false → fn ≠ 0 → fn.toNat ≤ 512 → (s.fn fn.toNat).state = .inService → s.badArgs false fn.toNat = false →
    s.otherShares fn.toNat + s.argShare ≤ 112 →
    exec (.modify h fn) s = .next ({ (s.seat h).modFn fn.toNat fun y => { y with
        gen := y.gen + 1, priCeil := s.fm.arg2.extractLsb' 0 12, share := s.fm.arg2.extractLsb' 12 8,
        user := s.fm.arg2.extractLsb' 20 36 } with
      fm.refused := false, fm.code := 0, fm.resFn := fn, fm.busy := false, fm.valid := true }.ok h)) ∧
  (∀ (fn : BitVec 10) (c : HpAttr → Instr), c ∈ ([(Instr.create · fn), (Instr.modify · fn), (Instr.destroy · fn),
      (Instr.flr · fn), (Instr.freeze · fn), (Instr.thaw · fn), (Instr.save · fn), (Instr.restore · fn),
      (Instr.abort · fn)] : List (HpAttr → Instr)) →
    HostDoes c (fun s => s.fm.busy = true) fun s => { s with fm.refused := true, fm.refusedFn := fn })

/-- FREEZE and THAW change a function's state and generation at once; FLR and DESTROY take it to RESET and wait for its runs, and their
end returns its entries to IDLE, closes its contexts, clears its queues and vectors, and leaves it in service, or ABSENT. -/
def Obligations.FunctionsStopAndEnd : Prop :=
  (∀ (s : State) (h : HpAttr) (fn : BitVec 10), s.Calm → s.LetIn h → s.fm.busy = false → s.st.sealed = true →
    s.cu.pairEn = false → fn ≠ 0 → fn.toNat ≤ 512 → (s.fn fn.toNat).state = .inService →
    (s.Canonical → s.quietNow fn.toNat = false →
      exec (.freeze h fn) s = .next ({ (s.seat h).modFn fn.toNat fun x => { x with state := .frozen, gen := x.gen + 1 } with
        fm.refused := false, fm.code := 0, fm.resFn := fn, fm.busy := false, fm.valid := true }.ok h)) ∧
    exec (.flr h fn) s = .next ({ (s.seat h).modFn fn.toNat fun x => { x with state := .reset, gen := x.gen + 1 } with
      mi.fences := s.mi.fences.filter (fun k => k.fn ≠ fn), fm.drain := some ⟨fn, false, .inService, s.pa.order⟩,
      fm.refused := false, fm.resFn := fn, fm.busy := true }.ok h) ∧
    exec (.destroy h fn) s = .next ({ (s.seat h).modFn fn.toNat fun x => { x with state := .reset, gen := x.gen + 1 } with
      mi.fences := s.mi.fences.filter (fun k => k.fn ≠ fn), fm.drain := some ⟨fn, true, .inService, s.pa.order⟩,
      fm.refused := false, fm.resFn := fn, fm.busy := true }.ok h)) ∧
  (∀ (s : State) (h : HpAttr) (fn : BitVec 10), s.mirrorOn = false → s.blocked = [] → s.LetIn h → s.fm.busy = false →
    s.st.sealed = true → s.cu.pairEn = false → s.fm.mig = none → fn ≠ 0 → fn.toNat ≤ 512 → (s.fn fn.toNat).state = .frozen →
    (s.fn fn.toNat).restored = false →
    ∃ t, exec (.thaw h fn) s = .next t ∧ (t.fn fn.toNat).state = .inService ∧ (t.fn fn.toNat).gen = (s.fn fn.toNat).gen + 1 ∧
      t.hp = ((s.seat h).ok h).hp ∧
      t.rest = ({ s with
        hp := t.hp, fm.refused := false, fm.code := 0, fm.resFn := fn, fm.busy := false, fm.valid := true } : State).rest) ∧
  (∀ (s : State) (fn : BitVec 10) (d : Drain), s.Canonical → s.Calm → s.live = true → s.gb.enable = false → fn.toNat ≤ 512 →
    let x := s.fn fn.toNat
    let ev := 0x440 + 256 * x.lodgBase.toNat
    (∀ e, ev ≤ e → e < ev + 256 * x.lodgN.toNat → s.Unplaced e) →
    (s.drained fn.toNat false = some d → d.back = .inService → s.Unplaced srcFlrDone → (s.entry srcFlrDone).state = .idle →
      (s.entry srcFlrDone).direct = false →
      ∃ t, exec (.flrDrainComplete fn) s = .next t ∧ (t.fn fn.toNat).state = .inService ∧ (t.fn fn.toNat).gen = x.gen + 1 ∧
        (t.fn fn.toNat).queues = [] ∧ (t.fn fn.toNat).vectors = [] ∧
        (∀ e, ev ≤ e → e < ev + 256 * x.lodgN.toNat → (t.entry e).state = .idle ∨ (t.entry e).state = .faulted) ∧
        (∀ i, i < 16 * x.ledgN.toNat →
          (t.ctx (16 * x.ledgBase.toNat + i)).state = .free ∨ (t.ctx (16 * x.ledgBase.toNat + i)).state = .faulted) ∧
        t.fm.drain = none ∧ t.fm.busy = false ∧ t.fm.code = 0 ∧ t.fm.valid = true ∧ t.pa = s.pa ∧ t.st = s.st ∧ t.hp = s.hp) ∧
    (s.drained fn.toNat true = some d →
      ∃ t, exec (.destroyDrainComplete fn) s = .next t ∧ t.fn fn.toNat = { gen := x.gen } ∧
        (∀ e, ev ≤ e → e < ev + 256 * x.lodgN.toNat →
          ((t.entry e).state = .idle ∨ (t.entry e).state = .faulted) ∧ (t.entry e).function = 0) ∧
        (∀ i, i < 16 * x.ledgN.toNat → (t.ctx (16 * x.ledgBase.toNat + i)).owner = 0) ∧
        t.fm.drain = none ∧ t.fm.busy = false ∧ t.fm.code = 0 ∧ t.fm.valid = true ∧ t.pa = s.pa ∧ t.st = s.st ∧ t.hp = s.hp))

/-- SAVE of a quiet function fixes its image and hands it out in segments of the staging buffer, NEXT after NEXT until the last; RESTORE
takes segments in the same way and installs each item as its last byte comes; ABORT ends either, and leaves the function FROZEN. -/
def Obligations.SaveRestoreAndAbort : Prop :=
  (∀ (s : State) (h : HpAttr) (fn : BitVec 10), s.mirrorOn = false → s.blocked = [] → s.LetIn h → s.fm.busy = false →
    s.st.sealed = true → s.cu.pairEn = false → fn ≠ 0 → fn.toNat ≤ 512 →
    (s.fm.mig = none → (s.fn fn.toNat).state = .frozen → s.quiet fn.toNat = true → s.basosFits fn.toNat = true →
      ∃ t, exec (.save h fn) s = .next t ∧ (t.fn fn.toNat).state = .saving ∧
        t.rest = ({ s with
          hp := ((s.seat h).ok h).hp, fm.refused := false, fm.code := 0, fm.resFn := fn, fm.busy := false, fm.valid := true,
          fm.mig := some ⟨true, fn, s.now, s.basosImage fn.toNat s.now, 0, none⟩, fm.migFn := fn, fm.migPhase := 1,
          fm.segReady := false, fm.segLen := 0, fm.last := false } : State).rest) ∧
    (s.fm.mig = none → (s.fn fn.toNat).state = .frozen →
      (∀ e, 0x440 + 256 * (s.fn fn.toNat).lodgBase.toNat ≤ e → (s.entry e).state = .idle) →
      (∀ c, (s.ctx c).state = .free) → s.Canonical →
      ∃ t, exec (.restore h fn) s = .next t ∧ (t.fn fn.toNat).state = .restoring ∧
        t.rest = ({ s with
          hp := ((s.seat h).ok h).hp, fm.refused := false, fm.code := 0, fm.resFn := fn, fm.busy := false, fm.valid := true,
          fm.mig := some ⟨false, fn, 0, [], 0, none⟩, fm.migFn := fn, fm.migPhase := 2,
          fm.segReady := false, fm.segLen := 0, fm.last := false } : State).rest) ∧
    (∀ (m : Migration) (len : BitVec 19), s.fm.mig = some m → m.fn = fn → m.saving = true → (s.fn fn.toNat).state = .saving →
      s.fm.segReady = true →
      (s.fm.last = false → ∃ t, exec (.next h fn len) s = .next t ∧ t.rest = ({ s with
          hp := ((s.seat h).ok h).hp, fm.refused := false, fm.code := 0, fm.resFn := fn, fm.busy := false, fm.valid := true,
          fm.segReady := false, fm.mig := some { m with done := m.done + s.fm.segLen.toNat } } : State).rest) ∧
      (s.fm.last = true → s.fm.migFn = fn → ∃ t, exec (.next h fn len) s = .next t ∧ (t.fn fn.toNat).state = .frozen ∧
        t.rest = ({ s with
          hp := ((s.seat h).ok h).hp, fm.refused := false, fm.code := 0, fm.resFn := fn, fm.busy := false, fm.valid := true,
          fm.mig := none, fm.migPhase := 0, fm.segReady := false } : State).rest)) ∧
    (∀ m : Migration, s.fm.mig = some m → m.fn = fn → ((s.fn fn.toNat).state = .saving ∨ (s.fn fn.toNat).state = .restoring) →
      ∃ t, exec (.abort h fn) s = .next t ∧ (t.fn fn.toNat).state = .frozen ∧ t.rest = ({ s with
          hp := ((s.seat h).ok h).hp, fm.refused := false, fm.code := 0, fm.resFn := fn, fm.busy := false, fm.valid := true,
          fm.mig := none, fm.migPhase := 0, fm.segReady := false } : State).rest)) ∧
  (∀ (s : State) (m : Migration), s.mirrorOn = false → s.live = true → s.fm.mig = some m → m.saving = true →
    s.fm.segReady = false →
    let n := Nat.min 262144 (m.image.length - m.done)
    ∃ t, exec .saveSegmentReady s = .next t ∧ t.fm.segReady = true ∧ t.fm.segLen.toNat = n ∧
      t.fm.last = decide (m.image.length ≤ m.done + n) ∧ (∀ i, i < n → t.snapByte i = m.image.getD (m.done + i) 0) ∧
      t.fm.mig = some m) ∧
  (∀ (s : State) (m : Migration) (n : Nat), s.mirrorOn = false → s.live = true → s.stillFns = [] → s.gb.gapDue = none →
    s.fm.mig = some m → m.saving = false → m.install = some n → s.headFault m.fn.toNat m.image = none →
    (readImage m.image).bad = false → m.image.length < sliceNat m.image 30 4 →
    ((∀ b ∈ (readImage m.image).items, b.upto ≤ m.done) →
      exec .restoreSegmentInstalled s = .next { s with fm.mig := some { m with install := none, done := m.image.length } }) ∧
    (∀ (l : List BasosItem) (b : BasosItem), (readImage m.image).items = l ++ [b] → (∀ k ∈ l, k.upto ≤ m.done) → m.done < b.upto →
      b.ty = 5 → b.idx < 8 * sliceNat m.image 24 2 →
      exec .restoreSegmentInstalled s = .next ({ s with
        fm.mig := some { m with install := none, done := m.image.length } }.modFn m.fn.toNat fun x => x.modVec b.idx fun v =>
          { v with addr := b.word 0, data := (b.word 1).extractLsb' 0 32, ctl := (b.word 1).extractLsb' 32 32 &&& 1 }))) ∧
  (∀ (s : State) (h : HpAttr) (off : BitVec 18) (v : Word) (m : Migration), s.mirrorOn = false → s.LetIn h → s.stillFns = [] →
    s.gb.gapDue = none → s.fm.mig = some m → m.saving = false → off.toNat % 8 = 0 →
    ∃ t, exec (.snapshotWindowWrite h off v) s = .next t ∧ t.hp = ((s.seat h).ok h).hp ∧
      (∀ i, i < 8 → tget 0 t.gb.buffer (off.toNat + i) = byteOf v i) ∧
      (∀ j, j < off.toNat ∨ off.toNat + 8 ≤ j → tget 0 t.gb.buffer j = tget 0 s.gb.buffer j) ∧
      { t with hp := s.hp, gb := { t.gb with buffer := s.gb.buffer } } = s) ∧
  (∀ (off : BitVec 18) (v : Word), off.toNat % 8 = 0 → HostDenies (fun h => .snapshotWindowWrite h off v) fun _ => True)

/-- A function page's registers: MSIX_CTL advances the generation and sends a pending message that nothing masks any more; a vector's
halves, a queue's consumer index, base and enable are written where the function holds them and the queue allows it. -/
def Obligations.FunctionPages : Prop :=
  (∀ (s : State) (h : HpAttr) (fn : BitVec 10) (v : Word), s.Calm → s.LetIn h → s.InService fn →
    ((s.fn fn.toNat).vectors = [] → s.Canonical →
      exec (.msixCtlWrite h fn v) s = .next (((s.seat h).modFn fn.toNat fun x =>
        { x with enable := v.getLsbD 0, fmask := v.getLsbD 1, gen := x.gen + 1 }).ok h)) ∧
    (∀ (n : Nat) (u : Vector), (s.fn fn.toNat).vectors = [(n, u)] → u.pending = true → u.ctl.getLsbD 0 = false →
      v.getLsbD 0 = true → v.getLsbD 1 = false → s.ep.spill = [] → s.ep.queue.length < 256 →
      ∃ t, exec (.msixCtlWrite h fn v) s = .next t ∧
        t.ep.queue = s.ep.queue ++ [⟨true, fn, 0, 0, BitVec.ofNat 11 n, none, none⟩] ∧
        ((t.fn fn.toNat).vec n).pending = false ∧ (t.fn fn.toNat).gen = (s.fn fn.toNat).gen + 1 ∧
        { t with hp := s.hp, ep := { t.ep with queue := s.ep.queue }, fm := { t.fm with fns := s.fm.fns } } = s)) ∧
  (∀ (s : State) (h : HpAttr) (fn : BitVec 10) (n : BitVec 11) (v : Word), s.Calm → s.LetIn h → s.InService fn →
    (n.toNat < 8 * (s.fn fn.toNat).vecN.toNat → (s.fn fn.toNat).enable = false → s.Canonical →
      exec (.msixTableWrite h fn n false v) s = .next (((s.seat h).modFn fn.toNat fun x => x.modVec n.toNat fun y =>
        { y with addr := v }).ok h) ∧
      exec (.msixTableWrite h fn n true v) s = .next (((s.seat h).modFn fn.toNat fun x => x.modVec n.toNat fun y =>
        { y with data := v.extractLsb' 0 32, ctl := v.extractLsb' 32 32 &&& 1 }).ok h)) ∧
    (8 * (s.fn fn.toNat).vecN.toNat ≤ n.toNat → ∀ high, exec (.msixTableWrite h fn n high v) s = .next ((s.seat h).deny h))) ∧
  (∀ (s : State) (h : HpAttr) (fn : BitVec 10) (q : BitVec 9) (v : Word), s.Calm → s.LetIn h → s.InService fn →
    q.toNat < 8 * (s.fn fn.toNat).nqN.toNat →
    let y := (s.fn fn.toNat).nq q.toNat
    let c := v.extractLsb' 0 16
    let ls := v.extractLsb' 1 4
    ((y.prod - c).toNat ≤ (y.prod - y.cons).toNat → exec (.nqConsWrite h fn q v) s =
      .next (((s.seat h).modFn fn.toNat fun z => z.modNq q.toNat fun n => { n with cons := c }).ok h)) ∧
    ((y.prod - y.cons).toNat < (y.prod - c).toNat → exec (.nqConsWrite h fn q v) s = .next ((s.seat h).deny h)) ∧
    (y.enable = false → exec (.nqBaseWrite h fn q v) s =
      .next (((s.seat h).modFn fn.toNat fun z => z.modNq q.toNat fun n => { n with base := v &&& ~~~(0x3F : Word) }).ok h)) ∧
    (y.enable = true → v &&& ~~~(0x3F : Word) ≠ y.base → exec (.nqBaseWrite h fn q v) s = .next ((s.seat h).deny h)) ∧
    (y.enable = false → v.getLsbD 0 = true → 4 ≤ ls.toNat → exec (.nqCfgWrite h fn q v) s =
      .next (((s.seat h).modFn fn.toNat fun z => z.modNq q.toNat fun n =>
        { n with enable := true, logsize := ls, prod := 0, cons := 0, phase := true }).ok h)) ∧
    (y.enable = true → ls ≠ y.logsize → 4 ≤ ls.toNat → exec (.nqCfgWrite h fn q v) s = .next ((s.seat h).deny h)))

/-- The write at the head of the egress queue is taken under a free identifier, a message with its vector's address; its answer ends
it, and a denied one is counted and logged, or, where the log holds one already, marked as overflow; it is not repeated. -/
def Obligations.EgressWrites : Prop :=
  (∀ (id : BitVec 5) (w : EgWrite), LineDoes (.egressWriteIssue id)
    (fun s => s.ep.queue.head? = some w ∧ w.group = none ∧ s.ep.outstanding.length < 32 ∧
      (∀ o ∈ s.ep.outstanding, o.1 ≠ id) ∧ s.pa.runs = [] ∧ s.powered 20 = true)
    fun s => { s with
      ep.queue := s.ep.queue.drop 1 ++ s.ep.spill.take 1, ep.spill := s.ep.spill.drop 1,
      ep.outstanding := s.ep.outstanding ++ [(id, s.issued w)] }) ∧
  (∀ (s : State) (w : EgWrite), (w.msix = false → s.issued w = w) ∧
    (w.msix = true → (s.issued w).addr = ((s.fn w.fn.toNat).vec w.index.toNat).addr &&& ~~~(3 : Word) ∧
      ((s.issued w).addr.getLsbD 2 = false → (s.issued w).data = (((s.fn w.fn.toNat).vec w.index.toNat).data).setWidth 128))) ∧
  (∀ id : BitVec 5, LineDoes (.egressWriteIssue id) (fun s => s.powered 20 = false) fun s => s) ∧
  (∀ (id : BitVec 5) (code : BitVec 2), LineDoes (.egressResponse id code) (fun s => s.powered 20 = false) (fun s => s)) ∧
  (∀ (id : BitVec 5) (w : EgWrite), LineDoes (.egressResponse id 0)
    (fun s => s.powered 20 = true ∧ s.ep.outstanding.find? (fun o => o.1 = id) = some (id, w))
    fun s => { s with ep.outstanding := s.ep.outstanding.filter fun o => o.1 ≠ id }) ∧
  (∀ (id : BitVec 5) (code : BitVec 2) (w : EgWrite), code ≠ 0 → LineDoes (.egressResponse id code)
    (fun s => s.powered 20 = true ∧ s.ep.outstanding.find? (fun o => o.1 = id) = some (id, w) ∧ s.ep.logValid = false)
    fun s => { s with
      ep.outstanding := s.ep.outstanding.filter (fun o => o.1 ≠ id), ep.denied := satInc s.ep.denied,
      ep.logFn := w.fn, ep.logKind := w.msix, ep.logIndex := w.index, ep.logValid := true }) ∧
  (∀ (id : BitVec 5) (code : BitVec 2) (w : EgWrite), code ≠ 0 → LineDoes (.egressResponse id code)
    (fun s => s.powered 20 = true ∧ s.ep.outstanding.find? (fun o => o.1 = id) = some (id, w) ∧ s.ep.logValid = true)
    fun s => { s with
      ep.outstanding := s.ep.outstanding.filter (fun o => o.1 ≠ id), ep.denied := satInc s.ep.denied, ep.logOvf := true })

/-- The Tollgate's judgement: the keeper window is the keeper's alone, a function page is its function's or the privileged PF's, and
elsewhere the region that covers the access decides, or, without one, the privileged PF alone is let in. CLOSE of an OPEN gate makes it
CLOSING, its own access still unanswered; REOPEN of a closed one begins the check of the regions as they stand; a check that finds no fault
opens the gate, one that does leaves it in FAULT with the first failing region; a region is written only while the gate is closed and no
check runs, TOLL_CFG at any time. All these are the keeper's: from any other path they are violations, denied and counted. -/
def Obligations.TollgateJudgementAndGate : Prop :=
  (∀ (s : State) (q : HpReq),
    (0x6010000 ≤ q.addr.toNat → s.judge q = .deny 2) ∧
    (0x10000 ≤ q.addr.toNat → q.addr.toNat < 0x20000 → s.judge q = if keeper q.attr then .pass else .deny 3) ∧
    (q.addr.toNat < 0x6010000 → (q.addr.toNat < 0x10000 ∨ 0x20000 ≤ q.addr.toNat) → s.tg.gate ≠ .opened → s.judge q = .stall) ∧
    (s.tg.gate = .opened → 0x4000000 ≤ q.addr.toNat → q.addr.toNat < 0x6010000 →
      s.judge q = if q.attr.fn.toNat = (q.addr.toNat - 0x4000000) / 0x10000 ∨ privPf q.attr then .pass else .deny 4) ∧
    (s.tg.gate = .opened → q.addr.toNat < 0x4000000 → (q.addr.toNat < 0x10000 ∨ 0x20000 ≤ q.addr.toNat) →
      (∀ p ∈ s.tg.regions, p.2.covers q.addr.toNat = false) → s.judge q = if privPf q.attr then .pass else .deny 6) ∧
    (∀ (l l' : Tbl Region) (n : Nat) (r : Region), s.tg.gate = .opened → q.addr.toNat < 0x4000000 →
      (q.addr.toNat < 0x10000 ∨ 0x20000 ≤ q.addr.toNat) → s.tg.regions = l ++ (n, r) :: l' →
      (∀ p ∈ l, p.2.covers q.addr.toNat = false) → r.covers q.addr.toNat = true →
      s.judge q = if privPf q.attr ∨ r.passes q then .pass else .deny 5)) ∧
  KeeperDoes .close (fun s => s.tg.gate = .opened) (fun s => { s with tg.gate := .closing, tg.closes := satInc s.tg.closes }) ∧
  KeeperDoes .close (fun s => s.tg.gate ≠ .opened) id ∧
  KeeperDoes .reopen (fun s => s.tg.gate ∈ [.closed, .fault] ∧ s.tg.check = none) (fun s => { s with tg.check := some s.tg.regions }) ∧
  KeeperDoes .reopen (fun s => s.tg.gate ∉ [.closed, .fault] ∨ s.tg.check ≠ none) id ∧
  (∀ l : Tbl Region, CoreDoes .reopenCheckComplete
    (fun s => s.tg.check = some l ∧ tableFault l = none ∧ s.hp.stalled = [])
    fun s => { s with tg.check := none, tg.gate := .opened, tg.fltValid := false }) ∧
  (∀ (s : State) (l : Tbl Region) (n c o : Nat), s.mirrorOn = false → s.live = true → s.tg.check = some l →
    tableFault l = some (n, c, o) →
    ∃ t, exec .reopenCheckComplete s = .next t ∧ t.rest = ({ s with tg := { s.tg with
      check := none, gate := .fault, faults := satInc s.tg.faults, fltRegion := BitVec.ofNat 7 n, fltCode := BitVec.ofNat 3 c,
      fltOther := BitVec.ofNat 7 o, fltValid := true } } : State).rest) ∧
  (∀ (n : BitVec 7) (v : Word), KeeperDoes (fun h => .tollRegionWrite h n v)
    (fun s => s.tg.gate ∈ [.closed, .fault] ∧ s.tg.check = none)
    fun s => { s with tg.regions := tset {} s.tg.regions n.toNat (regionOf v) }) ∧
  (∀ (s : State) (h : HpAttr) (n : BitVec 7) (v : Word), s.Calm → s.LetIn h → keeper h = true →
    (s.tg.gate ∈ [.opened, .closing] ∨ s.tg.check ≠ none) → exec (.tollRegionWrite h n v) s = .next ((s.seat h).deny h)) ∧
  (∀ v : Word, KeeperDoes (fun h => .registerWrite h 0x10010 v) (fun _ => True) fun s => { s with tg.imprecise := v.getLsbD 0 }) ∧
  (∀ (s : State) (h : HpAttr) (n : BitVec 7) (v : Word) (c : Instr), s.Calm → s.LetIn h → keeper h = false →
    c ∈ ([.close h, .reopen h, .tollRegionWrite h n v, .registerWrite h 0x10010 v] : List Instr) → s.tg.imprecise = false →
    s.tg.log.valid = true →
    ∃ t, exec c s = .next t ∧ t.hp = ((s.seat h).deny h).hp ∧
      t.tg = { s.tg with violations := satInc s.tg.violations, log := { s.tg.log with overflow := true } } ∧
      { t with hp := s.hp, tg := s.tg } = s)

/-! ### The Courier link (11) -/

/-- A flit time on an ACTIVE port sends the next stored flit of a replay; else a new flit of the waiting slots, stored until it is
acknowledged; else an IDLE; on a port that trains it sends a training block on each lane. The symbols that arrive are taken by the lanes of
the map, descrambled. A flit that fails its checks is counted and asks for a NAK; one in sequence advances the receive sequence; a
duplicate is counted; another asks for a NAK; an ACK frees what it covers. The ack timer replays from the oldest, and its eighth expiry in
a row takes the link down; a lane window that ends clears the lanes' counts.
A command that cannot occur in a state changes nothing there: this model's choice (notes/assumptions/1.md). -/
def Obligations.LinkFlits : Prop :=
  (∀ n : BitVec 2,
    PortDoes (.flitSend n) n (fun s p => p.state = .active ∧ s.domainOff (portDomain n.toNat) = false ∧
        ∃ i f, p.replayAt = some i ∧ p.buffer[i]? = some f)
      (fun _ p => match p.replayAt with
        | some i => match p.buffer[i]? with
          | some f =>
            let q := { p with replayAt := if i + 1 < p.buffer.length then some (i + 1) else none }
            q.onLine (bodyHead q f.seq f.body).1 (bodyHead q f.seq f.body).2
          | none => p
        | none => p) ∧
    PortDoes (.flitSend n) n (fun s p => p.state = .active ∧ s.domainOff (portDomain n.toNat) = false ∧ p.replayAt = none ∧
        s.cu.peers = [] ∧ p.linkQ = [] ∧ p.rspQ = [] ∧ p.reqQ ≠ [] ∧ p.buffer.length < 508)
      (fun s p =>
        let q := { p with
          reqQ := p.reqQ.drop 7, rspRun := 0, txNext := p.txNext + 1,
          buffer := p.buffer ++ [(⟨p.txNext, .data false (p.reqQ.take 7)⟩ : Stored)],
          timerAt := if p.buffer = [] then s.gl.time else p.timerAt }
        q.onLine (bodyHead q p.txNext (.data false (p.reqQ.take 7))).1 (p.reqQ.take 7)) ∧
    PortDoes (.flitSend n) n (fun s p => p.state = .active ∧ s.domainOff (portDomain n.toNat) = false ∧ p.replayAt = none ∧
        s.cu.peers = [] ∧ p.linkQ = [] ∧ p.rspQ = [] ∧ p.reqQ = [] ∧ p.parkOwed = none ∧ p.parkAsked = false)
      (fun _ p => { p with rspRun := 0 }.onLine (idleHead p) []) ∧
    PortDoes (.flitSend n) n (fun s p => p.trains = true ∧ s.domainOff (portDomain n.toNat) = false)
      (fun s p => { p with
        line := (List.range 5).foldl (fun l k => tset [] l k (lineSyms (leBytes 16 (trainingBlock k p.state.code s.gl.index.toNat
          p.good.toNat p.maxWidth.toNat p.kindFull p.ready (Config.txCoefficients (5 * n.toNat + k))).toNat))) p.line,
        readyOut := p.ready }) ∧
    LineDoes (.flitSend n) (fun s => (s.port n.toNat).state ≠ .active ∧ (s.port n.toNat).trains = false ∧
      (s.loopb n.toNat).running = false) id) ∧
  (∀ (p : Port) (h : FlitHead) (l : List (BitVec 128)), (p.onLine h l).lastFlit = wireOf (flitBytes h l) ∧
    (p.onLine h l).nakSent = if h.nak = true then satInc p.nakSent else p.nakSent) ∧
  (∀ (n : BitVec 2) (lines : List (List Pam4)), (Instr.flitReceive n lines).wf = true → (∃ l ∈ lines, l ≠ []) →
    let r (p : Port) := receiveWire (p.wireIn lines)
    let h (p : Port) := flitHead (r p).flit
    let ready (s : State) (p : Port) : Prop := p.state = .active ∧ s.domainOff (portDomain n.toNat) = false ∧ p.blameThr = 0 ∧
      p.corrThr = 0 ∧ p.badSlot = false
    let got (p : Port) : Port := p.rxAdvance.countFixed (r p).fixed
    let empty (s : State) (p : Port) : Prop := ready s p ∧ p.buffer = [] ∧ (r p).pass = true ∧ (h p).type = 1 ∧ (h p).slotv = 0
    PortDoes (.flitReceive n lines) n (fun s p => ready s p ∧ (r p).pass = false)
      (fun _ p => { p.rxAdvance.countBlame (blamed p.width.toNat (r p).flit) with failed := satInc p.failed, nak := true }) ∧
    PortDoes (.flitReceive n lines) n (fun s p => empty s p ∧ (h p).seq = p.rxExp)
      (fun _ p => { got p with rxExp := p.rxExp + 1, nak := false }) ∧
    PortDoes (.flitReceive n lines) n (fun s p => empty s p ∧ (h p).seq ≠ p.rxExp ∧ (p.rxExp - 1 - (h p).seq).toNat < 512)
      (fun _ p => { got p with duplicate := satInc p.duplicate }) ∧
    PortDoes (.flitReceive n lines) n (fun s p => empty s p ∧ (h p).seq ≠ p.rxExp ∧ 512 ≤ (p.rxExp - 1 - (h p).seq).toNat)
      (fun _ p => { got p with nak := true }) ∧
    PortDoes (.flitReceive n lines) n (fun s p => ready s p ∧ (r p).pass = true ∧ (h p).type = 0 ∧ (h p).nak = false ∧
        p.replayAt = none ∧ (h p).seq = p.rxExp - 1 ∧ ∃ o l, p.buffer = o :: l ∧ ((h p).ack - o.seq).toNat < p.buffer.length)
      (fun s p => { got p with
        buffer := match p.buffer with | o :: _ => p.buffer.drop (((h p).ack - o.seq).toNat + 1) | [] => [],
        tmoRun := 0, timerAt := s.gl.time, nakAck := none }) ∧
    LineDoes (.flitReceive n lines) (fun s => (s.port n.toNat).state ≠ .active ∧ (s.loopb n.toNat).respond = false ∧
      (s.loopb n.toNat).running = false) id) ∧
  (∀ n : BitVec 2,
    PortDoes (.ackTimerExpiry n) n (fun s p => p.linked = true ∧ p.buffer ≠ [] ∧ p.tmoRun ≠ 7 ∧
        16 * Nat.max 0x5E p.ackTmo.toNat ≤ s.age p.timerAt)
      (fun s p => { p with
        ackTmoCnt := satInc p.ackTmoCnt, tmoRun := p.tmoRun + 1, replayAt := some 0, replays := satInc p.replays,
        timerAt := s.gl.time, nakAck := none }) ∧
    LineDoes (.ackTimerExpiry n) (fun s => (s.port n.toNat).buffer = []) id ∧
    (∀ s : State, s.Canonical → s.Calm → s.portUp = true → s.cu.route = 0 → (s.port n.toNat).linked = true →
      (s.port n.toNat).buffer ≠ [] → (s.port n.toNat).tmoRun = 7 →
      16 * Nat.max 0x5E (s.port n.toNat).ackTmo.toNat ≤ s.age (s.port n.toNat).timerAt →
      ∃ t, exec (.ackTimerExpiry n) s = .next t ∧ (t.port n.toNat).state = (s.port n.toNat).downState ∧
        (t.port n.toNat).cause = .ackTmo ∧ (t.port n.toNat).buffer = [] ∧ ({ t with pa.runs := s.pa.runs } : State).rest = s.rest) ∧
    PortDoes (.laneWindowEnd n) n (fun s p => p.state = .active ∧ 1000 * Nat.max 1 p.win.toNat ≤ s.age p.winAt)
      (fun s p => { p with winAt := s.gl.time, lanes := tmap {} p.lanes fun _ l => { l with corr := 0, blame := 0 } }) ∧
    LineDoes (.laneWindowEnd n) (fun s => (s.port n.toNat).state ≠ .active) id)

/-- A received PROPOSE is answered, unless this end's own is open and its index is lower; the ANSWER to an open proposal takes the link to
RETRAIN, or to EQ for a FULL one, on no map; a PARK_REQ is owed its PARK_ACK, which parks the port that asked; a ZEROISE message takes the
link down. The commands of CUR_CMD ask for the same from this end.
A command that cannot occur in a state changes nothing there: this model's choice (notes/assumptions/1.md). -/
def Obligations.LinkMessages : Prop :=
  (∀ (n : BitVec 2) (m : LinkMsg) (seq : W12),
    PortDoes (.propose n m seq) n (fun s p => p.state = .active ∧ (p.proposal = none ∨ ¬ s.gl.index < m.index))
      (fun s p => { p with
        peerGood := m.good, peerMaxw := m.maxw, peerIndex := m.index, parkAsked := false, parkOwed := none, proposal := none,
        again := p.again || (match p.proposal with | some q => q.full && !m.full | none => false),
        linkQ := (p.linkQ.filter fun x => (sfld x 0 8).toNat ≠ 1) ++
          [linkMsg 2 m.full p.good.toNat p.maxWidth.toNat s.gl.index.toNat seq.toNat] }) ∧
    PortDoes (.propose n m seq) n (fun s p => p.state = .active ∧ p.proposal ≠ none ∧ s.gl.index < m.index)
      (fun _ p => { p with
        peerGood := m.good, peerMaxw := m.maxw, peerIndex := m.index, parkAsked := false, parkOwed := none }) ∧
    LineDoes (.propose n m seq) (fun s => (s.port n.toNat).state ≠ .active) id ∧
    PortDoes (.answer n m seq) n (fun _ p => p.state = .active ∧ ∃ q, p.proposal = some q ∧ q.seq = some seq)
      (fun _ p => { p.retrainLanes with
        peerGood := m.good, peerMaxw := m.maxw, peerIndex := m.index, state := if m.full = true then .eq else .retrain,
        oldMap := p.map, oldWidth := p.width, map := 0, width := 0, retrains := satInc p.retrains, kindFull := m.full,
        proposal := none, parkAsked := false, replayAt := none,
        again := p.again || (match p.proposal with | some q => q.full && !m.full | none => false),
        linkQ := p.linkQ.filter fun x => (sfld x 0 8).toNat ≠ 1 }) ∧
    LineDoes (.answer n m seq) (fun s => ∀ q, (s.port n.toNat).proposal = some q → q.seq ≠ some seq) id ∧
    PortDoes (.parkReq n seq) n (fun _ p => p.state = .active ∧ p.proposal = none) (fun _ p => { p with parkOwed := some seq }) ∧
    LineDoes (.parkReq n seq) (fun s => (s.port n.toNat).state ≠ .active ∨ (s.port n.toNat).proposal ≠ none) id ∧
    PortDoes (.parkAck n seq) n (fun s p => p.state = .active ∧ p.parkSeq = some seq ∧ s.toSend n.toNat = false ∧
        s.wakeSeen n.toNat = false)
      (fun _ p => { p with
        state := .park, oldMap := p.map, oldWidth := p.width, map := 0, width := 0, parkAsked := false, parkOwed := none,
        parkSeq := none, replayAt := none }) ∧
    LineDoes (.parkAck n seq) (fun s => (s.port n.toNat).parkSeq ≠ some seq) id) ∧
  (∀ (s : State) (n : BitVec 2), s.Canonical → s.Calm → s.portUp = true → s.cu.route = 0 → (s.port n.toNat).state = .active →
    ∃ t, exec (.linkZeroise n) s = .next t ∧ (t.port n.toNat).state = (s.port n.toNat).downState ∧
      (t.port n.toNat).cause = .peerZeroise ∧ ({ t with pa.runs := s.pa.runs } : State).rest = s.rest) ∧
  (∀ n : BitVec 2,
    LineDoes (.linkZeroise n) (fun s => (s.port n.toNat).linked = false) id ∧
    HostPortDoes (fun h => .curRetrain h n) n (fun _ p => p.state = .active ∧ p.proposal = none)
      (fun s p => { p with
        proposal := some ⟨true, none⟩, parkAsked := false, parkOwed := none,
        linkQ := p.linkQ ++ [linkMsg 1 true p.good.toNat p.maxWidth.toNat s.gl.index.toNat 0] }) ∧
    HostPortDoes (fun h => .curRetrain h n) n (fun _ p => p.state = .active ∧ ∃ q, p.proposal = some q ∧ q.full = false)
      (fun _ p => { p with again := true }) ∧
    HostPortDoes (fun h => .curRemap h n) n (fun _ p => p.state = .active ∧ p.proposal = none)
      (fun s p => { p with
        proposal := some ⟨false, none⟩, parkAsked := false, parkOwed := none,
        linkQ := p.linkQ ++ [linkMsg 1 false p.good.toNat p.maxWidth.toNat s.gl.index.toNat 0] }) ∧
    HostPortDoes (fun h => .curPark h n) n (fun _ p => p.state = .active ∧ p.proposal = none)
      (fun _ p => { p with parkAsked := true, parkSeq := if p.parkAsked = true then p.parkSeq else none }) ∧
    HostPortDoes (fun h => .curUnpark h n) n (fun _ p => p.state = .park ∧ p.kept = true)
      (fun s p => { p.retrainLanes with
        wakeOut := some s.gl.time, parkAsked := false, parkOwed := none, parkSeq := none, state := .retrain,
        retrains := satInc p.retrains }) ∧
    (∀ c : HpAttr → Instr, c ∈ ([(Instr.curRetrain · n), (Instr.curRemap · n), (Instr.curPark · n)] : List (HpAttr → Instr)) →
      HostDoes c (fun s => (s.port n.toNat).state ≠ .active) id) ∧
    HostDoes (fun h => .curUnpark h n) (fun s => (s.port n.toNat).state ≠ .park) id)

/-- Training: a peer seen takes DETECT to EQ; the grading ends EQ in ALIGN, or in DETECT where no lane is good, the link of a FULL
reconfiguration being down with it; a training block teaches what it says of its sender and counts towards its lane's lock, a bad one breaks
the count. ALIGN and RETRAIN mark a lane of the map that is not locked bad; with every lane locked this end is ready, and the link is ACTIVE
once a block has carried that ready bit and the peer's has come: from ALIGN with sequence numbers and scramblers at their start, from RETRAIN
with the stored flits to replay, and with a GRANT sent. ALIGN ends in OFF where the peer bears this block's index or another revision.
That a FULL reconfiguration with no good lane ends in DETECT with NO_LANE is this model's reading (notes/assumptions/54.md).
A command that cannot occur in a state changes nothing there: this model's choice (notes/assumptions/1.md). -/
def Obligations.LinkTraining : Prop :=
  (∀ (n : BitVec 2) (k : BitVec 3), k.toNat < 5 →
    PortDoes (.peerDetected n k) n (fun _ p => p.state = .detect) (fun _ p => { p.retrainLanes with state := .eq }) ∧
    LineDoes (.peerDetected n k) (fun s => (s.port n.toNat).state ≠ .detect) id) ∧
  (∀ (n : BitVec 2) (g : BitVec 5),
    let equalised (p : Port) : Port := { p with
      graded := g, bad := 0, again := false, kept := true, lanes := tmap {} p.lanes fun _ l => { l with corr := 0, blame := 0 } }
    PortDoes (.eqComplete n g) n (fun _ p => p.state = .eq ∧ g &&& ~~~p.laneDis ≠ 0)
      (fun _ p => { (equalised p).retrainLanes with state := .align }) ∧
    PortDoes (.eqComplete n g) n (fun _ p => p.state = .eq ∧ g &&& ~~~p.laneDis = 0 ∧ p.kindFull = false)
      (fun _ p => { (equalised p).retrainLanes with state := .detect, kept := false }) ∧
    (∀ s : State, s.Canonical → s.Calm → s.portUp = true → s.cu.route = 0 → (s.port n.toNat).state = .eq →
      (s.port n.toNat).kindFull = true → g &&& ~~~(s.port n.toNat).laneDis = 0 →
      ∃ t, exec (.eqComplete n g) s = .next t ∧ (t.port n.toNat).state = .detect ∧ (t.port n.toNat).cause = .noLane ∧
        ({ t with pa.runs := s.pa.runs } : State).rest = s.rest) ∧
    LineDoes (.eqComplete n g) (fun s => (s.port n.toNat).state ≠ .eq) id) ∧
  (∀ (n : BitVec 2) (k : BitVec 3) (b : BitVec 128), k.toNat < 5 →
    PortDoes (.trainingBlockReceive n k b) n
      (fun _ p => p.state ≠ .off ∧ p.state ≠ .park ∧ p.state ≠ .detect ∧
        blockGood (if p.spare k.toNat = true then spareScramble k.toNat b else b) = false)
      (fun _ p => p.modLane k.toNat fun l => { l with lockRun := 0 }) ∧
    (blockGood b = true → PortDoes (.trainingBlockReceive n k b) n (fun _ p => p.state = .align ∨ p.state = .eq)
      (fun s p => { p with
        peerIndex := b.extractLsb' 24 2, peerGood := b.extractLsb' 32 5, peerMaxw := b.extractLsb' 40 3,
        peerRev := b.extractLsb' 48 8, peerReady := b.getLsbD 57, peerValid := true, wakeOut := none }.modLane k.toNat fun l =>
          { l with
            lockRun := Nat.min (l.lockRun + 1) 3, lastAt := s.gl.time,
            locked := decide (3 ≤ l.lockRun + 1) || (l.locked && decide (l.lockRun ≠ 0)) })) ∧
    LineDoes (.trainingBlockReceive n k b)
      (fun s => (s.port n.toNat).state = .off ∨ (s.port n.toNat).state = .park ∨ (s.port n.toNat).state = .detect) id) ∧
  (∀ n : BitVec 2,
    PortDoes (.alignComplete n) n (fun s p => p.state = .align ∧ p.kindFull = false ∧ p.peerValid = true ∧ s.linksRise = true ∧
        s.domainOff (portDomain n.toNat) = false ∧ p.peerIndex = s.gl.index)
      (fun _ p => { p.flush.retrainLanes with state := .off, offHold := true, cause := .sameIndex, kept := false }) ∧
    PortDoes (.alignComplete n) n (fun s p => p.state = .align ∧ p.kindFull = false ∧ p.peerValid = true ∧ s.linksRise = true ∧
        s.domainOff (portDomain n.toNat) = false ∧ p.peerIndex ≠ s.gl.index ∧ p.peerRev.extractLsb' 4 4 ≠ glbId.extractLsb' 20 4)
      (fun _ p => { p.flush.retrainLanes with state := .off, offHold := true, cause := .revision, kept := false }) ∧
    LineDoes (.alignComplete n) (fun s => (s.port n.toNat).state ≠ .align) id ∧
    LineDoes (.retrainComplete n) (fun s => (s.port n.toNat).state ≠ .retrain) id ∧
    LineDoes (.retrainComplete n) (fun s => s.linksRise = false) id ∧
    (∀ (c : Instr) (m : BitVec 5) (w : BitVec 3),
      let trained (s : State) (p : Port) : Prop := s.linksRise = true ∧ p.nextMap = some (m, w) ∧
        ((c = .retrainComplete n ∧ p.state = .retrain) ∨
         (c = .alignComplete n ∧ p.state = .align ∧ p.peerValid = true ∧ s.domainOff (portDomain n.toNat) = false ∧
           p.peerIndex ≠ s.gl.index ∧ p.peerRev.extractLsb' 4 4 = glbId.extractLsb' 20 4))
      PortDoes c n (fun s p => trained s p ∧ p.lockedOn m = false)
        (fun _ p => { p with bad := p.bad ||| (lanesOf m).foldl (fun b k => setBit b k (!(p.lane k).locked)) 0 }) ∧
      PortDoes c n (fun s p => trained s p ∧ p.lockedOn m = true ∧ p.ready = false)
        (fun _ p => { p with ready := true, readyOut := false }) ∧
      PortDoes c n (fun s p => trained s p ∧ p.lockedOn m = true ∧ p.ready = true ∧ (p.readyOut = false ∨ p.peerReady = false))
        (fun _ p => p))) ∧
  (∀ (s : State) (n : BitVec 2) (m : BitVec 5) (w : BitVec 3), s.Canonical → s.Calm → s.portUp = true → s.awake = true →
    s.cu.route = 0 → s.cu.pairEn = false →
    let p := s.port n.toNat
    let b := p.peerIndex.toNat
    let granted (q : Port) : State := (s.modPort n.toNat fun _ => q).modPeer b fun x =>
      { x with given := if x.given.toNat < s.grantTo b then BitVec.ofNat 13 (s.grantTo b) else x.given }
    p.nextMap = some (m, w) → p.ready = true → p.readyOut = true → p.peerReady = true → p.lockedOn m = true → p.again = false →
    (p.state = .align → p.kindFull = false → p.peerValid = true → s.domainOff (portDomain n.toNat) = false →
      p.peerIndex ≠ s.gl.index → p.peerRev.extractLsb' 4 4 = glbId.extractLsb' 20 4 →
      ∃ t q, exec (.alignComplete n) s = .next t ∧ t = granted q ∧ q.state = .active ∧ q.map = m ∧
        q.width = w ∧ q.txNext = 0 ∧ q.rxExp = 0 ∧ q.buffer = [] ∧ q.reqQ = [] ∧ q.rspQ = [slotGrant (s.grantTo b)] ∧ q.linkQ = [] ∧
        q.nak = false ∧ q.proposal = none ∧ q.kept = true ∧ q.winAt = s.gl.time ∧ q.timerAt = s.gl.time ∧
        (∀ k, (q.lane k).corr = 0 ∧ (q.lane k).blame = 0) ∧
        (∀ j k, j < w.toNat → laneAt m j = some k → (q.lane k).txKey = prbsSeed j ∧ (q.lane k).rxKey = prbsSeed j)) ∧
    (p.state = .retrain → m = p.oldMap → w = p.oldWidth →
      ∃ t q, exec (.retrainComplete n) s = .next t ∧ t = granted q ∧ q.state = .active ∧ q.map = m ∧
        q.width = w ∧ q.buffer = p.buffer ∧ q.replayAt = (if p.buffer = [] then none else some 0) ∧
        q.replays = (if p.buffer = [] then p.replays else satInc p.replays) ∧ q.txNext = p.txNext ∧ q.nak = p.nak ∧
        q.rxExp = p.rxExp ∧ q.reqQ = p.reqQ ∧ q.rspQ = p.rspQ ++ [slotGrant (s.grantTo b)] ∧ q.linkQ = p.linkQ ∧ q.kept = true ∧
        (∀ k, (q.lane k).corr = 0 ∧ (q.lane k).blame = 0) ∧
        (∀ j k, j < w.toNat → laneAt m j = some k → (q.lane k).txKey = prbsSeed j ∧ (q.lane k).rxKey = prbsSeed j))) ∧
  (∀ (a b : BitVec 5) (x y : BitVec 3) (m : BitVec 5) (w : BitVec 3), linkMap a b x y = some (m, w) →
    (w = 4 ∨ w = 2 ∨ w = 1) ∧ w ≤ x ∧ w ≤ y ∧ (lanesOf m).length = w.toNat ∧ m &&& a = m ∧ m &&& b = m)

/-- A spare lane sends its training blocks, and loses its lock where the peer's stop; a map lane that loses lock takes the link to RETRAIN.
A wake from the peer takes a parked port to RETRAIN, and the block out of NAP; this end's wake is driven for 100 µs. CUR_CFG sets the
port's registers, and enables or disables it.
A command that cannot occur in a state changes nothing there: this model's choice (notes/assumptions/1.md).
The coefficients a lane requests are free values (notes/assumptions/2.md). -/
def Obligations.LanesWakeAndConfiguration : Prop :=
  (∀ (n : BitVec 2) (k : BitVec 3), k.toNat < 5 →
    PortDoes (.spareTrainingBlockSend n k) n (fun _ p => p.spare k.toNat = true)
      (fun s p => { p with
        line := tset [] p.line k.toNat (lineSyms (leBytes 16 (spareScramble k.toNat (trainingBlock k.toNat 4 s.gl.index.toNat
          p.good.toNat p.maxWidth.toNat p.kindFull p.ready (Config.txCoefficients (5 * n.toNat + k.toNat)))).toNat)) }) ∧
    LineDoes (.spareTrainingBlockSend n k) (fun s => (s.port n.toNat).spare k.toNat = false) id ∧
    PortDoes (.spareLockTimeout n k) n (fun s p => p.spare k.toNat = true ∧ (p.lane k.toNat).locked = true ∧
        1500 < s.age (p.lane k.toNat).lastAt)
      (fun _ p => p.modLane k.toNat fun l => { l with locked := false, lockRun := 0 }) ∧
    LineDoes (.spareLockTimeout n k) (fun s => (s.port n.toNat).spare k.toNat = false ∨
      s.age ((s.port n.toNat).lane k.toNat).lastAt ≤ 1500) id ∧
    PortDoes (.flitLockLoss n k) n (fun _ p => p.state = .active ∧ p.map.getLsbD k.toNat = true)
      (fun _ p => { p.retrainLanes with
        state := .retrain, oldMap := p.map, oldWidth := p.width, map := 0, width := 0, retrains := satInc p.retrains,
        kindFull := false, proposal := none, parkAsked := false, replayAt := none,
        again := p.again || (match p.proposal with | some q => q.full | none => false),
        linkQ := p.linkQ.filter fun x => (sfld x 0 8).toNat ≠ 1 }) ∧
    LineDoes (.flitLockLoss n k) (fun s => (s.port n.toNat).map.getLsbD k.toNat = false) id) ∧
  (∀ n : BitVec 2,
    PortDoes (.curWakeAssert n) n (fun s p => s.awake = true ∧ p.state = .park ∧ p.kept = true)
      (fun s p => { p.retrainLanes with
        wakeIn := some s.gl.time, wakeOut := some s.gl.time, parkAsked := false, parkOwed := none, parkSeq := none,
        state := .retrain, retrains := satInc p.retrains }) ∧
    PortDoes (.curWakeAssert n) n (fun s p => s.awake = true ∧ p.state ≠ .park) (fun s p => { p with wakeIn := some s.gl.time }) ∧
    (∀ s : State, s.Canonical → s.Calm → s.portUp = true → s.np.state = .nap → s.np.target = 1 → (s.port n.toNat).state = .park →
      ∃ t, exec (.curWakeAssert n) s = .next t ∧ t.np = { s.np with
          wCourier := true, wPort := n, state := .exiting, alarmV := false, fired := false, asleep := false, wakeDue := none,
          pswEn := s.np.pswEn ||| 0x88FFFF } ∧
        (t.port n.toNat).state = (if (s.port n.toNat).kept = true then .retrain else .detect) ∧
        (t.port n.toNat).wakeOut = some s.gl.time ∧ { t with cu.ports := s.cu.ports, np := s.np } = s) ∧
    LineDoes (.curWakeAssert n) (fun s => (s.np.state = .nap ∨ s.np.state = .sleep) ∧ s.np.target ≠ 1)
      (fun s => { s.modPort n.toNat fun p => { p with wakeIn := some s.gl.time } with
        np.wCourier := true, np.wPort := n, np.state := .exiting, np.alarmV := false, np.fired := false, np.asleep := false,
        np.wakeDue := none, np.pswEn := s.np.pswEn ||| removedDomains s.np.target }) ∧
    PortDoes (.wakeDriveTimeout n) n (fun s p => ∃ a, p.wakeOut = some a ∧ 100000 ≤ s.age a) (fun _ p => { p with wakeOut := none }) ∧
    LineDoes (.wakeDriveTimeout n) (fun s => ∀ a, (s.port n.toNat).wakeOut = some a → s.age a < 100000) id) ∧
  (∀ (n : BitVec 2) (v : Word),
    let mw (p : Port) : BitVec 3 := if v.extractLsb' 2 3 = 1 ∨ v.extractLsb' 2 3 = 2 ∨ v.extractLsb' 2 3 = 4 then v.extractLsb' 2 3
      else p.maxWidth
    (v.getLsbD 0 = true → HostPortDoes (fun h => .curCfgWrite h n v) n (fun s p => p.state = .off ∧ s.looping n.toNat = false ∧
        s.domainOff (portDomain n.toNat) = false ∧ s.ts.portsLost.getLsbD n.toNat = false)
      (fun _ p => { p with
        enable := true, autoRetry := v.getLsbD 1, maxWidth := mw p, laneDis := v.extractLsb' 5 5, state := .detect, offHold := false })) ∧
    (v.getLsbD 0 = false → HostPortDoes (fun h => .curCfgWrite h n v) n (fun s p => p.state = .off ∧ s.looping n.toNat = false)
      (fun _ p => { p with enable := false, autoRetry := v.getLsbD 1, maxWidth := mw p, laneDis := v.extractLsb' 5 5 })) ∧
    (∀ (s : State) (h : HpAttr), v.getLsbD 0 = false → s.Canonical → s.Calm → s.LetIn h → s.cu.route = 0 →
      s.looping n.toNat = false → (s.port n.toNat).enable = true → (s.port n.toNat).state = .active →
      ∃ t, exec (.curCfgWrite h n v) s = .next t ∧ (t.port n.toNat).state = .off ∧ (t.port n.toNat).cause = .disable ∧
        (t.port n.toNat).buffer = [] ∧ t.hp = ((s.seat h).ok h).hp ∧
        ({ t with pa.runs := s.pa.runs } : State).rest = ({ s with hp := t.hp } : State).rest))

/-! ### Remote delivery and pair mode (12) -/

/-- A PLACE in a given room makes a visitor, a candidate of its target; one without a room takes the link down. An UPDATE changes an
unclaimed visitor and is reported; a RECALL removes one; a REPORT drives the home entry through its stimuli, and a final one and the RETURN
together free its room; a GRANT records what the peer gives. CUR_ROOM_GRANT takes grants of at most 4,096 rooms in all, and sends an
ACTIVE port's peer its own. Which of its storage rooms a visitor takes is this model's choice (notes/assumptions/41.md).
A REQ slot received during the entry to NAP or SLEEP counts as a latched wake.
A command that cannot occur in a state changes nothing there: this model's choice (notes/assumptions/1.md). -/
def Obligations.RemoteEntries : Prop :=
  (∀ (s : State) (n : BitVec 2) (room : BitVec 16) (ev : BitVec 17) (g : BitVec 8) (pri : W12) (payload : BitVec 36) (mask : Bool),
    s.Canonical → s.Calm → s.portUp = true → s.cu.route = 0 → (s.port n.toNat).state = .active →
    let b := s.peerOf n.toNat
    let key := 4096 * b + room.toNat
    (s.roomGiven b room.toNat = true → room.toNat < 4096 → s.visitor key = none → tget none (s.peer b).reports room.toNat = none →
      (s.peer b).returns = [] → s.NoCandidate g.toNat → s.enabled g.toNat = false →
      ∃ t, exec (.place n room ev g pri payload mask) s = .next t ∧
        t.visitor key = some ⟨BitVec.ofNat 2 b, room.setWidth 12, ev, g, pri, payload, mask, 0, .queued, none,
          BitVec.ofNat 12 s.freeStore⟩ ∧
        (t.target g.toNat).front = [131072 + key] ∧ (t.target g.toNat).offered = none ∧ t.rest = (s.reqLatch n.toNat).rest) ∧
    (s.roomGiven b room.toNat = false →
      ∃ t, exec (.place n room ev g pri payload mask) s = .next t ∧ (t.port n.toNat).cause = .quota ∧
        (t.port n.toNat).state = (s.port n.toNat).downState ∧
        (t.port n.toNat).quotaCnt = satInc (s.port n.toNat).quotaCnt ∧
        ({ t with pa.runs := s.pa.runs } : State).rest = (s.reqLatch n.toNat).rest)) ∧
  (∀ (s : State) (n : BitVec 2) (room : BitVec 16) (v : Visitor), s.Canonical → s.Calm → s.portUp = true → s.cu.route = 0 →
    (s.port n.toNat).linked = true → s.roomGiven (s.peerOf n.toNat) room.toNat = true →
    let b := s.peerOf n.toNat
    let key := 4096 * b + room.toNat
    s.visitor key = some v → v.home.toNat = b → v.room.toNat = room.toNat →
    (∀ (pri : W12) (payload : BitVec 36) (u : BitVec 4) (mask has : Bool),
      (v.state = .queued → pri = v.priority → (s.target v.target.toNat).bands = [] → (s.target v.target.toNat).offered = none →
        s.enabled v.target.toNat = false →
        ∃ t, exec (.update n room pri payload u mask has) s = .next t ∧
          t.visitor key = some { v with
            mask := mask, payload := if has = true then payload else v.payload, ucount := if has = true then u else v.ucount } ∧
          (has = true → tget none (t.peer b).reports room.toNat = some (slotReport room.toNat v.event.toNat 3 u.toNat)) ∧
          (t.target v.target.toNat).front = (s.target v.target.toNat).front ∧ t.rest = (s.reqLatch n.toNat).rest) ∧
      (v.state = .claimed → has = false → exec (.update n room pri payload u mask has) s = .next (s.reqLatch n.toNat))) ∧
    (v.state = .queued → (s.target v.target.toNat).front = [131072 + key] → (s.target v.target.toNat).bands = [] →
      (s.target v.target.toNat).offered = none →
      ∃ t, exec (.recall n room) s = .next t ∧ t.visitor key = none ∧ (t.target v.target.toNat).front = [] ∧
        tget none (t.peer b).reports room.toNat = some (slotReport room.toNat v.event.toNat 5 v.ucount.toNat) ∧
        t.rest = (s.reqLatch n.toNat).rest) ∧
    (v.state = .claimed → exec (.recall n room) s = .next (s.reqLatch n.toNat))) ∧
  (∀ (s : State) (n : BitVec 2) (room : BitVec 16) (ev : BitVec 17) (u : BitVec 4) (r : Room), s.Canonical → s.Calm →
    s.portUp = true → s.cu.route = 0 → s.gb.enable = false → (s.port n.toNat).linked = true →
    let b := s.peerOf n.toNat
    tget none (s.peer b).rooms room.toNat = some r → twf none (s.peer b).rooms = true →
    (r.event = ev.toNat → (s.side ev.toNat).room = some (BitVec.ofNat 2 b, room.setWidth 12) → room.toNat < 4096 →
      s.busy ev.toNat = false → (s.side ev.toNat).placed = none → (s.side ev.toNat).holder = none →
      (s.side ev.toNat).ucount = u → isWired ev.toNat = false →
      ((s.entry ev.toNat).state = .queued →
        ∃ t, exec (.report n room ev 1 u) s = .next t ∧ s.EntryTakes t ev.toNat { s.entry ev.toNat with state := .offered } ∧
          (t.side ev.toNat).acked = u ∧ t.rest = (s.reqLatch n.toNat).rest) ∧
      ((s.entry ev.toNat).state = .offered →
        (∃ t, exec (.report n room ev 2 u) s = .next t ∧ s.EntryTakes t ev.toNat { s.entry ev.toNat with state := .claimed } ∧
          (t.side ev.toNat).acked = u ∧ t.rest = (s.reqLatch n.toNat).rest) ∧
        (∃ t, exec (.report n room ev 3 u) s = .next t ∧ s.EntryTakes t ev.toNat { s.entry ev.toNat with state := .queued } ∧
          (t.side ev.toNat).acked = u ∧ t.rest = (s.reqLatch n.toNat).rest)) ∧
      ((s.entry ev.toNat).state = .claimed → r.returned = false →
        ∃ t, exec (.report n room ev 4 u) s = .next t ∧ s.EntryTakes t ev.toNat { s.entry ev.toNat with state := .idle } ∧
          (t.side ev.toNat).room = none ∧ tget none (t.peer b).rooms room.toNat = some { r with reported := true } ∧
          t.rest = (s.reqLatch n.toNat).rest)) ∧
    (r.event ≠ ev.toNat → ∀ st : Byte, st ≠ 4 → st ≠ 5 →
      exec (.report n room ev st u) s = .next ((s.modPeer b fun p => { p with stray := true }).reqLatch n.toNat)) ∧
    (∃ t, exec (.returnRooms n [room]) s = .next t ∧
      tget none (t.peer b).rooms room.toNat = (if r.reported = true then none else some { r with returned := true }) ∧
      t.rest = s.rest)) ∧
  (∀ (n : BitVec 2) (m : BitVec 16), LineDoes (.grant n m) (fun s => (s.port n.toNat).linked = true ∧ s.cu.route = 0)
    fun s => s.modPeer (s.peerOf n.toNat) fun p => { p with granted := BitVec.ofNat 13 (Nat.min m.toNat 4096), valid := true }) ∧
  (∀ v : Word,
    let sum (s : State) : Nat := ((List.range 4).map fun b =>
      if b = s.gl.index.toNat then 0 else (v.extractLsb' (13 * b) 13).toNat).sum
    HostDoes (fun h => .curRoomGrantWrite h v) (fun s => sum s ≤ 4096 ∧ ∀ n : BitVec 2, (s.port n.toNat).state ≠ .active)
      (fun s => { s with cu.roomGrant := v.extractLsb' 0 52 }) ∧
    (∀ n : BitVec 2, HostDoes (fun h => .curRoomGrantWrite h v)
      (fun s => sum s ≤ 4096 ∧ (s.port n.toNat).state = .active ∧ ∀ m : BitVec 2, m ≠ n → (s.port m.toNat).state ≠ .active)
      (fun s =>
        let b := s.peerOf n.toNat
        let g := (v.extractLsb' (13 * b) 13).toNat
        (({ s with cu.roomGrant := v.extractLsb' 0 52 } : State).modPeer b fun p =>
          { p with given := if p.given.toNat < g then BitVec.ofNat 13 g else p.given }).modPort n.toNat fun p =>
            { p with rspQ := p.rspQ ++ [slotGrant g] })) ∧
    HostDenies (fun h => .curRoomGrantWrite h v) fun s => 4096 < sum s)

/-- A mirrored item waits for its group's end, which applies it to the shadow, or drops it where the shadow is lost, and acknowledges the
group; an acknowledgement releases what waited for it. CUR_PAIR_CFG sets pair mode before the store is sealed, and moves a pair to another
port. Pairing begins as the mirror port becomes ACTIVE with both stores sealed; that the partner's is sealed is a free value of this model
(notes/assumptions/37.md). PROMOTE of a broken pair takes over the shadow under the partner's index, its holds marked under the fallback.
A REQ slot received during the entry to NAP or SLEEP counts as a latched wake.
A command that cannot occur in a state changes nothing there: this model's choice (notes/assumptions/1.md). -/
def Obligations.Pairing : Prop :=
  (∀ (s : State) (n : BitVec 2) (kind : Byte) (seq : BitVec 16) (item : BitVec 32) (low : Word) (d : BitVec 128), s.stillFns = [] →
    s.gb.gapDue = none → s.fm.mig = none → s.NoneWaits → s.portUp = true → (s.port n.toNat).linked = true →
    s.mirrorPort n.toNat = true →
    (2 * s.cu.mirrorIn.length + 2 ≤ 4096 →
      exec (.mirror n kind seq item low d) s = .next
        (({ s with cu.mirrorIn := s.cu.mirrorIn ++ [⟨kind, item, low, d⟩] } : State).reqLatch n.toNat)) ∧
    (∀ (e : BitVec 32) (x : Entry), s.cu.mirrorIn = [⟨0, e, 0, d⟩] → d ≠ BitVec.allOnes 128 → (s.port n.toNat).state = .active →
      s.cu.unrestored = [] → entryOfData d = x → s.er.shadow = false →
      exec (.mirrorEnd n seq 3) s = .next (({ s with
        cu.mirrorIn := [], cu.shEntries := tset {} s.cu.shEntries e.toNat x,
        cu.shHolds := if x.state = EvState.heldCurfew then s.cu.shHolds else s.cu.shHolds.filter fun h => h.event ≠ e.toNat
        }.modPort n.toNat fun p => { p with rspQ := p.rspQ ++ [slotMirrorAck seq.toNat 3] }).reqLatch n.toNat)) ∧
    (s.er.shadow = true → s.cu.mirrorIn.length < 2000 → (s.port n.toNat).state = .active →
      exec (.mirrorEnd n seq (BitVec.ofNat 16 (2 * s.cu.mirrorIn.length + 1))) s = .next (({ s with cu.mirrorIn := [] }.modPort n.toNat
        fun p => { p with rspQ := p.rspQ ++ [slotMirrorAck seq.toNat (2 * s.cu.mirrorIn.length + 1)] }).reqLatch n.toNat)) ∧
    (∀ freed : BitVec 16, s.cu.pair = .paired → s.cu.mirrorQ = [] →
      exec (.mirrorAck n seq freed) s = .next { s with
        cu.ackedNo := seq, cu.backlog := BitVec.ofNat 13 (s.cu.backlog.toNat - freed.toNat) }) ∧
    (∀ (freed : BitVec 16) (g : List (BitVec 128)), s.Canonical → s.cu.pair = .paired → s.cu.mirrorQ = [g] →
      freed.toNat ≤ s.cu.backlog.toNat →
      s.cu.backlog.toNat - freed.toNat + g.length ≤ 4096 → (s.port s.cu.pairPort.toNat).state = .active →
      ∃ t, exec (.mirrorAck n seq freed) s = .next t ∧ t.cu.mirrorQ = [] ∧ t.cu.ackedNo = seq ∧
        t.cu.backlog.toNat = s.cu.backlog.toNat - freed.toNat + g.length ∧
        t.port s.cu.pairPort.toNat = { s.port s.cu.pairPort.toNat with reqQ := (s.port s.cu.pairPort.toNat).reqQ ++ g } ∧
        { t with cu := s.cu } = s)) ∧
  (∀ x : Entry, entryOfData (entryItem 0 x).data = x) ∧
  (∀ v : Word,
    HostDoes (fun h => .pairPortWrite h v)
      (fun s => s.st.sealed = false ∧ s.st.sealing = false ∧ s.looping (v.extractLsb' 1 2).toNat = false)
      (fun s => { s with
        cu.pairEn := v.getLsbD 0, cu.partner := v.extractLsb' 3 2, cu.pair := if v.getLsbD 0 = true then .waiting else .off,
        cu.pairPort := v.extractLsb' 1 2, cu.pairAuto := v.getLsbD 5, cu.zpromote := v.getLsbD 6 }) ∧
    HostDoes (fun h => .pairPortWrite h v)
      (fun s => s.st.sealed = true ∧ s.looping (v.extractLsb' 1 2).toNat = false)
      (fun s => { s with cu.pairPort := v.extractLsb' 1 2, cu.pairAuto := v.getLsbD 5, cu.zpromote := v.getLsbD 6 }) ∧
    (∀ (s : State) (h : HpAttr), s.stillFns = [] → s.gb.gapDue = none → s.fm.mig = none → s.LetIn h → s.st.sealed = true →
      s.cu.pair = .paired → v.extractLsb' 1 2 ≠ s.cu.pairPort → s.looping (v.extractLsb' 1 2).toNat = false →
      (s.port (v.extractLsb' 1 2).toNat).state ≠ .active →
      exec (.pairPortWrite h v) s = .next ({ s.seat h with
        cu.pairPort := v.extractLsb' 1 2, cu.pairAuto := v.getLsbD 5, cu.zpromote := v.getLsbD 6, cu.pair := .moving,
        cu.oldPort := s.cu.pairPort }.ok h))) ∧
  (∀ (s : State) (n : BitVec 2) (m : BitVec 5) (w : BitVec 3), s.Canonical → s.Calm → s.portUp = true → s.awake = true →
    s.cu.route = 0 → s.cu.pairEn = true → s.cu.pair = .waiting → s.st.sealed = true → s.cu.pairPort = n →
    let p := s.port n.toNat
    p.state = .retrain → p.nextMap = some (m, w) → m = p.oldMap → w = p.oldWidth → p.ready = true → p.readyOut = true →
    p.peerReady = true → p.lockedOn m = true → p.again = false →
    ∃ t, exec (.retrainComplete n) s = .next t ∧ t.free = s.free + 1 ∧
      t.cu.pair = if Config.partnerSealed s.free = true then .paired else .waiting) ∧
  (∀ (s : State) (h : HpAttr), s.Canonical → s.Calm → s.LetIn h → s.cu.pair = .broken → s.er.shadow = false → s.cu.shFns = [] →
    s.cu.shCtxs = [] → s.cu.peers = [] → s.rn.visitors = [] →
    ∀ (e : Nat) (x : Entry), s.cu.shEntries = [(e, x)] → 0x440 ≤ e → x.state = .posted →
    s.gb.enable = false → s.Unplaced 0xD → (s.entry 0xD).direct = false →
    ∃ t, exec (.promote h) s = .next t ∧ t.entry e = { x with run := false } ∧ t.hp = ((s.seat h).ok h).hp ∧
      t.rest = ({ s with
        hp := t.hp, gl.aliasV := true, gl.alias_ := s.cu.partner, cu.pair := .promoted, cu.mirrorIn := [], cu.shEntries := [],
        cu.shHolds := [] } : State).rest ∧
      (∀ k ∈ s.cu.shHolds, { k with mark := k.mark || s.fallback } ∈ t.cf.holds)) ∧
  HostDoes .promote (fun s => s.cu.pair ≠ .broken ∨ s.er.shadow = true) id

/-! ### Errors, the time base and power (13, 14, 16) -/

/-- A corrected word is counted and posted; an uncorrectable entry is FAULTED with every field but FUNCTION zero, counted and logged; a
hold word that is lost keeps its entry held, by the CONSTANT rule from the instant of detection; a rebuilt side word is counted. A task
that a pass meets twice goes to the end of its dispatch list. A strobe publishes the time, marks a late one, and gives the Porter watchdog
its view, except during PORST_N low and ZEROISE.
A command that cannot occur in a state changes nothing there: this model's choice (notes/assumptions/1.md). -/
def Obligations.ScrubbingAndTime : Prop :=
  (∀ (s : State) (arr : BitVec 5) (loc : BitVec 19), s.mirrorOn = false → s.NoneWaits → s.live = true → 1 ≤ arr.toNat →
    arr.toNat ≤ 16 → arr ≠ 5 →
    ∃ t, exec (.scrubPass arr loc .corrected) s = .next t ∧
      t.rest = ({ s with er.corrected := satInc s.er.corrected } : State).rest) ∧
  (∀ (s : State) (loc : BitVec 19), s.Alone loc.toNat → s.live = true → 0x440 ≤ loc.toNat → loc.toNat < nEntries →
    s.er.valid = false → s.Unplaced 1 → (s.entry 1).direct = false →
    ∃ t, exec (.scrubPass 1 loc .uncorrectable) s = .next t ∧ t.entry loc.toNat = { state := .faulted, function := s.ownerOf loc.toNat } ∧
      t.rest = ({ s with
        er.uncorr := satInc s.er.uncorr, er.array := 1, er.location := loc, er.outcome := 0, er.valid := true } : State).rest) ∧
  (∀ (s : State) (loc : BitVec 19) (k : Hold), s.Alone 1 → s.live = true → s.er.valid = false → s.cf.holds = [k] →
    k.event = loc.toNat → loc.toNat ≠ 1 → (s.entry 1).state = .idle → (s.entry 1).sensitive = false → (s.entry 1).direct = false →
    ∃ t, exec (.scrubPass 3 loc .uncorrectable) s = .next t ∧ t.cf.holds = [{ k with mark := true, p := s.now }] ∧
      t.entry loc.toNat = s.entry loc.toNat ∧
      t.rest = ({ s with
        er.uncorr := satInc s.er.uncorr, er.array := 3, er.location := loc, er.outcome := 4, er.valid := true } : State).rest) ∧
  (∀ (arr : BitVec 5) (loc : BitVec 19), 1 ≤ arr.toNat → arr.toNat ≤ 16 →
    (arr ≠ 1 → CoreDoes (.scrubPass arr loc .clean) (fun _ => True) id) ∧
    (arr = 1 → loc.toNat < nEntries →
      CoreDoes (.scrubPass arr loc .clean)
        (fun s => (s.side loc.toNat).task = true ∧ s.dispatchable loc.toNat = true ∧ (s.side loc.toNat).taskSeen = false)
        (fun s => s.modSide loc.toNat fun d => { d with taskSeen := true }) ∧
      CoreDoes (.scrubPass arr loc .clean)
        (fun s => (s.side loc.toNat).task = true ∧ s.dispatchable loc.toNat = true ∧ (s.side loc.toNat).taskSeen = true)
        (fun s => (s.modDlist (s.bank loc.toNat) fun l => l.filter (· ≠ loc.toNat) ++ [loc.toNat]).modSide loc.toNat fun d =>
          { d with task := false, taskSeen := false }))) ∧
  (∀ e : BitVec 17,
    CoreDoes (.sideWordRebuildComplete e) (fun s => (s.side e.toNat).wait = true ∧ s.cu.unrestored = [])
      (fun s => { s.modSide e.toNat fun d => { d with wait := false } with er.restored := satInc s.er.restored }) ∧
    CoreDoes (.sideWordRebuildComplete e) (fun s => (s.side e.toNat).wait = false) id) ∧
  (∀ (s : State) (v : Word),
    (s.portUp = true → exec (.tbStrobe v) s = .next { s with pa.watch := s.watched v, gl := { s.gl with
      time := v, tbSeen := true,
      tbLate := s.gl.tbLate || (s.gl.tbSeen && decide (16 < ((v - s.gl.time).extractLsb' 0 48).toNat)) } }) ∧
    (s.portUp = false → exec (.tbStrobe v) s = .next s))

/-- A power request is checked and answered with its code; an accepted one begins entry, with the alarm ahead of the next instant of the
call list; once the ports are parked the first domains' switches fall, with those that keep their arrays in retention, for SLEEP the others
once their supplies are down, and the last fall of their supplies ends entry; a wake source begins exit; exit ends once the supplies are
back. TRIM gates an idle cluster and powers it again, once its supply is seen down. PWR_CFG and PEAK_CLR take their values.
A command that cannot occur in a state changes nothing there: this model's choice (notes/assumptions/1.md). -/
def Obligations.PowerChanges : Prop :=
  (∀ (s : State) (h : HpAttr) (c : HpAttr → Instr) (k : BitVec 2), (c = .pwrNap ∧ k = 1) ∨ (c = .pwrSleep ∧ k = 2) → s.Calm →
    s.LetIn h → let code := s.pwrCode h
    (code ≠ 0 → exec (c h) s = .next ({ s.seat h with
      np.target := k, np.result := code, np.resultV := true, np.refusedC := satInc s.np.refusedC }.ok h)) ∧
    (code = 0 → s.cu.ports = [] → s.mi.channels = [] → s.wf.level &&& (s.wf.inputs ^^^ s.wf.activeLow) = 0 →
      exec (c h) s = .next ({ s.seat h with
      np.target := k, np.result := 0, np.resultV := true, np.state := .entering, np.wakeDue := none, cf.jreq := s.jreqUp,
      np.alarmV := s.callHead.isSome,
      np.fireAt := match s.callHead with
        | some (_, _, i) => i - (if k = 1 then 2048 else 40960)
        | none => s.np.fireAt }.ok h)) ∧
    (privPf h = false → code = 1) ∧
    (privPf h = true → s.fm.fns = [] → s.fm.busy = true → code = 2) ∧
    (privPf h = true → s.fm.fns = [] → s.fm.busy = false → s.workless = false → code = 3)) ∧
  LineDoes .powerEntryPortsParked (fun s => s.np.state = .entering ∧ s.np.saved = false ∧ s.portsParked = true ∧
      ∀ n, s.looping n = false)
    (fun s =>
      let keep : BitVec 24 := if s.np.target = 1 then 0x08FFFF else if s.np.storeRet = true then 0x1FFFFF else 0x1F0001
      { s with
        np.saved := true, np.retEn := (s.np.retEn ||| (0x88FFFF &&& s.np.pswEn)) &&& keep, np.ret := s.np.ret &&& keep,
        np.pswEn := s.np.pswEn &&& 0x770000 }) ∧
  LineDoes .powerEntryPortsParked (fun s => s.np.state ≠ .entering ∨ s.portsParked = false) id ∧
  (∀ d : BitVec 5, d.toNat < 24 →
    LineDoes (.domainPowerGood d true) (fun s => s.isGated d.toNat = false)
      (fun s => { s with np.pswGood := setBit s.np.pswGood d.toNat true }) ∧
    LineDoes (.domainPowerGood d true) (fun s => d.toNat < 16 ∧ s.isGated d.toNat = true ∧ s.np.pswEn.getLsbD d.toNat = true ∧
        s.awake = true ∧ s.np.ret.getLsbD d.toNat = true ∧ s.st.storeOk.getLsbD d.toNat = true ∧ s.st.reloading = 0)
      (fun s => { s with
        np.pswGood := setBit s.np.pswGood d.toNat true, np.gated := s.np.gated.filter (· ≠ d.setWidth 4),
        np.off := setBit s.np.off d.toNat false, np.ret := setBit s.np.ret d.toNat false,
        np.retEn := setBit s.np.retEn d.toNat false }) ∧
    LineDoes (.domainPowerGood d false) (fun s => s.np.pswEn.getLsbD d.toNat = true)
      (fun s => { s with np.pswGood := setBit s.np.pswGood d.toNat false }) ∧
    LineDoes (.domainPowerGood d false) (fun s => d.toNat < 16 ∧ s.np.pswEn.getLsbD d.toNat = false ∧ s.awake = true ∧
        s.np.ungateDue.getLsbD d.toNat = true)
      (fun s => { s with
        np.pswGood := setBit s.np.pswGood d.toNat false, np.off := setBit s.np.off d.toNat true,
        np.ret := setBit s.np.ret d.toNat (s.np.retEn.getLsbD d.toNat), np.pswEn := setBit s.np.pswEn d.toNat true,
        np.ungateDue := setBit s.np.ungateDue d.toNat false }) ∧
    LineDoes (.domainPowerGood d false) (fun s => s.np.pswEn.getLsbD d.toNat = false ∧ s.np.state = .entering ∧
        s.np.saved = true ∧ s.np.target = 2 ∧ setBit s.np.pswGood d.toNat false &&& 0x88FFFF = 0 ∧ s.np.pswEn ≠ 0)
      (fun s =>
        let keep : BitVec 24 := if s.np.storeRet = true then 0x1FFFFF else 0x1F0001
        { s with
          np.pswGood := setBit s.np.pswGood d.toNat false, np.off := setBit s.np.off d.toNat true,
          np.ret := setBit s.np.ret d.toNat (s.np.retEn.getLsbD d.toNat) &&& keep,
          np.retEn := (s.np.retEn ||| s.np.pswEn) &&& keep, np.pswEn := 0 }) ∧
    LineDoes (.domainPowerGood d false) (fun s => s.np.pswEn.getLsbD d.toNat = false ∧ s.np.state ≠ .entering ∧
        s.np.ungateDue.getLsbD d.toNat = false)
      (fun s => { s with
        np.pswGood := setBit s.np.pswGood d.toNat false, np.off := setBit s.np.off d.toNat true,
        np.ret := setBit s.np.ret d.toNat (s.np.retEn.getLsbD d.toNat) }) ∧
    (∀ s : State, s.Calm → s.portUp = true → s.np.pswEn.getLsbD d.toNat = false → s.np.state = .entering → s.np.saved = true →
      s.np.target = 1 → setBit s.np.pswGood d.toNat false &&& 0x88FFFF = 0 → s.np.pswEn &&& 0x88FFFF = 0 → s.np.wakeDue = none →
      ∃ t, exec (.domainPowerGood d false) s = .next t ∧ t.np.state = .nap ∧ t.np.naps = satInc s.np.naps ∧ t.np.asleep = true ∧
        t.np.ret = s.np.retEn ∧ t.cf.pool = [] ∧ t.lt = s.lt ∧ t.lg = s.lg ∧ t.rn = s.rn ∧ t.cu = s.cu ∧ t.fm = s.fm ∧
        t.st = { s.st with storeOk := s.st.storeOk &&& s.np.retEn.setWidth 16 })) ∧
  LineDoes .npAlarmFire (fun s => s.np.alarmV = true ∧ reached s.now s.np.fireAt = true ∧
      (s.np.state = .nap ∨ s.np.state = .sleep) ∧ (s.np.target = 1 → ∀ m : BitVec 2, (s.port m.toNat).state ≠ .park))
    (fun s => { s with
      np.wAlarm := true, np.fired := true, np.alarmV := false, np.state := .exiting, np.asleep := false, np.wakeDue := none,
      np.pswEn := s.np.pswEn ||| removedDomains s.np.target }) ∧
  LineDoes .npAlarmFire (fun s => s.np.alarmV = false ∨ reached s.now s.np.fireAt = false) id ∧
  (∀ s : State, s.Canonical → s.Calm → s.portUp = true → s.hp.untaken = [] → s.np.wbuf = [] →
    (s.np.state = .exiting → s.exitPowered = true → s.np.target = 1 → s.np.saveLost = [] → s.np.wbufLost = [] →
      s.st.storeOk = BitVec.allOnes 16 → s.cu.ports = [] → s.wf.level = 0 → s.np.latch = 0 → s.mi.channels = [] →
      ∃ t, exec .wakeExit s = .next t ∧ t.np = { s.np with
          state := if s.np.trimEn = true then .trim else .run, saved := false, off := 0, ret := 0, retEn := 0, gated := [],
          ungateDue := 0, idleSince := t.np.idleSince } ∧ { t with np := s.np } = s) ∧
    (s.np.state ≠ .exiting ∨ s.exitPowered = false → exec .wakeExit s = .next s)) ∧
  (∀ k : BitVec 4,
    CoreDoes (.trimIdleExpiry k) (fun s => s.mayGate k.toNat = true ∧ s.np.pswGood.getLsbD k.toNat = true ∧
        ∀ j, (s.queue j).tasks = [])
      (fun s => { s with
        np.gated := s.np.gated ++ [k], np.retEn := setBit s.np.retEn k.toNat s.np.trimRet,
        np.pswEn := setBit s.np.pswEn k.toNat false,
        st.storeOk := if s.np.trimRet = true then s.st.storeOk else setBit s.st.storeOk k.toNat false }) ∧
    CoreDoes (.trimIdleExpiry k) (fun s => s.np.trimEn = false ∨ s.clusterIdle k.toNat = false) id) ∧
  (∀ v : Word, HostDoes (fun h => .pwrCfgWrite h v) (fun s => s.np.gated = [])
    fun s => { s with
      np.trimEn := v.getLsbD 0, np.storeRet := v.getLsbD 1, np.trimRet := v.getLsbD 2, np.trimMin := v.extractLsb' 3 6,
      np.trimIdle := v.extractLsb' 9 12, np.trimWake := v.extractLsb' 21 7,
      np.state := if v.getLsbD 0 = true then .trim else .run }) ∧
  HostDoes .peakClr (fun _ => True) (fun s => { s with np.peak := BitVec.ofNat 10 s.np.wbuf.length })

/-! ### Start-up, ZEROISE and test (13, 15) -/

/-- PORST_N high begins the hardware phase, low returns the block to reset; self-test, the seed and the end of lodging initialisation lead
to READY. ZEROISE denies what is outstanding, and its end erases the block and begins start-up again, once the level has gone.
A command that cannot occur in a state changes nothing there: this model's choice (notes/assumptions/1.md). -/
def Obligations.StartupAndZeroise : Prop :=
  (∀ s : State, s.hp.untaken = [] →
    (s.np.porst = false → s.np.porstDue = false → s.np.zHold = false → s.np.zRun = false →
      exec .porstNRise s = .next { s with
        ts.phase := .selftest, np.porst := true, np.pswEn := 0xFFFFFF, np.off := 0, np.ret := 0, np.retEn := 0 }) ∧
    (s.np.porst = true → s.np.porstDue = false → exec .porstNRise s = .next s)) ∧
  (∀ s : State,
    (s.np.porst = true → s.np.zRun = false → exec .porstNFall s = .next { State.reset with
      pending := s.pending, free := s.free, wf := { State.reset.wf with inputs := s.wf.inputs },
      cf := { State.reset.cf with ready := s.cf.ready, fail := s.cf.fail, jack := s.cf.jack },
      mi := { State.reset.mi with channels := tmap {} s.mi.channels fun _ c => { req := c.req, held := c.held } },
      er := { State.reset.er with zeroised := s.er.zeroised, zcause := s.er.zcause },
      np := { State.reset.np with
        zIn := s.np.zIn, pswGood := s.np.pswGood, zHold := s.np.zHold, zDone := s.np.zHold && s.np.zDone } }) ∧
    (s.np.porst = true → s.np.zRun = true → exec .porstNFall s = .next { s with np.porstDue := true, np.porstBack := false }) ∧
    (s.np.porst = false → exec .porstNFall s = .next s)) ∧
  (∀ (s : State) (r : SelftestResult), s.Canonical → s.portUp = true →
    (s.ts.phase = .selftest → r.copies = 0 → r.replays = 0 → r.other = none → r.porters = 0 →
      ∃ t, exec (.selftestComplete r) s = .next t ∧ t.st = { s.st with storeOk := BitVec.allOnes 16 } ∧
        t.ts = { s.ts with
          phase := .rngWait, bistDone := true, bistPass := true, bistArray := 0, bistInst := 0, clusters := 0, portsLost := 0 } ∧
        (∀ k p, k < 16 → p < 5 → (t.porter k p).state = if p < 4 then .active else .spare) ∧
        { t with st := s.st, ts := s.ts, pa := { t.pa with porters := s.pa.porters }, np := { t.np with pswGood := s.np.pswGood } } = s) ∧
    (s.ts.phase = .selftest → r.other ≠ none → ∃ t, exec (.selftestComplete r) s = .next t ∧ t.ts.phase = .failed ∧
      t.ts.bistPass = false) ∧
    (s.ts.phase ≠ .selftest → exec (.selftestComplete r) s = .next s)) ∧
  (∀ (s : State) (seed : BitVec 128), s.portUp = true →
    (s.ts.phase = .rngWait → s.cf.ready = true → s.cf.fail = false →
      s.powered 16 = true → s.cf.kdrop = false →
      exec (.keyHandshakeComplete seed) s = .next { s with
        lt.seed := seed, lt.scramble := 1, ts.phase := .seeding, cf.kreq := false }) ∧
    (s.powered 16 = true → s.cf.kreq = true → s.ts.phase ≠ .rngWait ∨ s.cf.kdrop = true →
      exec (.keyHandshakeComplete seed) s = .next { s with cf.kreq := false, cf.kdrop := false }) ∧
    (s.cf.kreq = false → s.ts.phase ≠ .rngWait ∨ s.cf.ready = false ∨ s.cf.fail = true →
      exec (.keyHandshakeComplete seed) s = .next s)) ∧
  (∀ (s : State) (h : HpAttr), s.Calm → s.portUp = true → s.awake = true → s.portRoom h = true →
    (s.ts.phase = .rngWait → exec (.fixedScramble h) s =
      .next ({ s.seat h with
        lt.seed := 0, lt.scramble := 2, ts.phase := .seeding, cf.kreq := s.kreqUp, cf.kdrop := s.cf.kdrop || s.kreqUp }.ok h)) ∧
    (s.ts.phase ≠ .rngWait → exec (.fixedScramble h) s = .next ((s.seat h).ok h))) ∧
  (∀ s : State, s.Canonical → s.Calm → s.portUp = true →
    (s.ts.phase = .seeding → s.gl.tbSeen = true → s.er.zeroised = false → s.lt.srcPend = [] → s.wf.level = 0 → s.np.latch = 0 →
      s.mi.channels = [] →
      ∃ t, exec .startupReady s = .next t ∧ t.ts = { s.ts with phase := .ready } ∧ t.wf = { s.wf with enabled := true } ∧
        t.fn 0 = { s.fn 0 with state := .inService, index := s.gl.index } ∧ t.np.state = .run ∧
        { t with
          ts := s.ts, wf := s.wf, er := { t.er with shadow := s.er.shadow }, fm := { t.fm with fns := s.fm.fns },
          np := { t.np with state := s.np.state, idleSince := s.np.idleSince } } = s) ∧
    (s.ts.phase ≠ .seeding ∨ s.gl.tbSeen = false → exec .startupReady s = .next s)) ∧
  (∀ s : State,
    (s.hp.untaken = [] → s.np.zIn = true → exec .zeroiseRise s = .next s) ∧
    (s.hp.untaken = [] → s.np.zIn = false → s.np.zRun = true → exec .zeroiseRise s = .next { s with np.zIn := true }) ∧
    (s.hp.untaken = [] → s.np.zIn = false → s.np.zRun = false → s.cu.ports = [] →
      ∃ t, exec .zeroiseRise s = .next t ∧ (∀ x ∈ s.hp.slots, ∃ r ∈ t.hp.responses, r.id = x.id) ∧
        (∀ r ∈ t.hp.responses, r ∈ s.hp.responses ∨
          (r.code = .deny ∧ ∃ x ∈ s.hp.slots, r.id = x.id ∧ r.data = List.replicate x.words 0)) ∧
        { t with hp := s.hp } = { s with
          ep := { s.ep with queue := [], spill := [] }, er.zcause := 1, blocked := [],
          np := { s.np with zIn := true, zRun := true, zInternal := false, zDone := false, wbuf := [], wbufLost := [] } }) ∧
    (s.np.zRun = false → s.hp.untaken = [] → exec .zeroiseComplete s = .next s) ∧
    (s.np.zRun = true → s.hp.untaken = [] → s.np.zInternal = false → s.np.porst = true → s.np.porstDue = false →
      s.np.zMaker = false → s.ts.maker = none →
      ∃ t, exec .zeroiseComplete s = .next t ∧ t.lt = {} ∧ t.lg = {} ∧ t.pa = {} ∧ t.st = {} ∧ t.ab = {} ∧ t.rn = {} ∧ t.fm = {} ∧
        t.tg = {} ∧ t.cu = {} ∧ t.gb = {} ∧ t.gl = {} ∧ t.er = { zeroised := true, zcause := s.er.zcause } ∧ t.np.zDone = true ∧
        t.np.zRun = false ∧ t.np.zHold = s.np.zIn ∧ t.hp.slots = s.hp.slots ∧ t.hp.responses = s.hp.responses ∧
        t.ts.phase = if s.np.zIn = true then .reset else .selftest) ∧
    (s.hp.untaken = [] → s.np.zRun = true → s.np.zMaker = true → s.np.porstDue = false →
      ∃ t, exec .zeroiseComplete s = .next t ∧ t.np.zRun = true ∧ t.np.zInternal = true ∧ t.er.zcause = 2 ∧ t.lt = {} ∧ t.cu = {} ∧
        t.np.zMaker = false) ∧
    (s.hp.untaken = [] → s.np.zIn = true → s.np.zHold = true → s.np.porst = true → s.ts.maker = none →
      exec .zeroiseFall s = .next { s with
        ts.phase := .selftest,
        np := { s.np with
          zIn := false, zHold := false, zDone := false, pswEn := 0xFFFFFF, off := 0, ret := 0, retEn := 0 } }) ∧
    (s.hp.untaken = [] → s.np.zIn = true → s.np.zHold = false → exec .zeroiseFall s = .next { s with np.zIn := false }) ∧
    (s.hp.untaken = [] → s.np.zIn = false → exec .zeroiseFall s = .next s))

/-- The test access port's instructions read their registers and change no other state; a maker-only one erases the block first, and
SELFTEST restarts it. Loopbacks run on an OFF port, count what they check, and end on STOP; a delivery loopback agent takes a target that
nobody uses, claims what it offers and completes it. What SAMPLE and EXTEST capture, and the cells that
PRELOAD loads, are the free values of log entry 2; EXTEST drives the cells loaded. That a TARGET written while EN is set is served from then on is this model's choice
(notes/assumptions/61.md).
A command that cannot occur in a state changes nothing there: this model's choice (notes/assumptions/1.md). -/
def Obligations.TestCommands : Prop :=
  (∀ s : State,
    exec .bypass s = .next { s with ts.tapIr := .bypass, ts.tapDr := [0], ts.pins := none } ∧
    exec .idcode s = .next { s with
      ts.tapIr := .idcode, ts.tapDr := [word [(1, 1), (11, Config.manufacturer.toNat), (16, 0x0E27), (4, 0)]], ts.pins := none } ∧
    exec .samplePreload s = .next { s with
      free := s.free + 1, ts.tapIr := .sample, ts.tapDr := [Config.boundaryCells s.free], ts.bsr := Config.boundaryScan s.free,
      ts.pins := none } ∧
    exec .extest s = .next { s with
      free := s.free + 1, ts.tapIr := .extest, ts.tapDr := [Config.boundaryCells s.free], ts.pins := some s.ts.bsr } ∧
    exec .startRead s = .next { s with
      ts.tapIr := .startRead, ts.tapDr := [word [(3, s.ts.phase.code)],
        word [(1, b2n s.ts.bistDone), (1, b2n s.ts.bistPass), (5, s.ts.bistArray.toNat), (9, s.ts.bistInst.toNat),
          (16, s.ts.clusters.toNat), (4, s.ts.portsLost.toNat)]], ts.pins := none } ∧
    exec .paceRead s = .next { s with
      ts.tapIr := .paceRead, ts.tapDr := [word [(12, s.pa.pace.toNat), (12, s.pa.paceMin.toNat), (12, s.pa.paceMax.toNat),
        (1, b2n s.pa.paceValid)]], ts.pins := none } ∧
    (∀ n : BitVec 2, let l := s.loopb n.toNat
      exec (.loop n none) s = .next { s with
        ts.tapIr := .loop, ts.tapDr := [word [(2, l.depth.toNat), (1, 0), (1, b2n l.respond), (1, b2n l.pattern),
          (5, l.lanes.toNat), (32, l.flits.toNat)], word [(2, l.state.toNat), (4, l.code.toNat), (32, l.ok.toNat),
          (16, l.bad.toNat)]], ts.pins := none }) ∧
    (∀ ir : Byte, s.np.zRun = false → s.hp.untaken = [] → s.hp.slots = [] → s.cu.ports = [] →
      exec (.makerOnlyInstruction ir) s = .next { s with
        ep := { s.ep with queue := [], spill := [] }, er.zcause := 2, blocked := [], hp.stalled := [],
        ts := { s.ts with tapIr := .maker ir, maker := some ir, pins := none },
        np := { s.np with zRun := true, zInternal := true, zDone := false, wbuf := [], wbufLost := [] } }) ∧
    (∀ ir : Byte, s.np.zRun = true → s.hp.untaken = [] →
      exec (.makerOnlyInstruction ir) s = .next { s with
        ts := { s.ts with tapIr := .maker ir, maker := some ir, pins := none }, np.zMaker := true }) ∧
    (s.np.porst = true → s.np.zRun = false → s.np.zHold = false →
      ∃ t, exec .selftest s = .next t ∧ t.ts.phase = .selftest ∧ t.ts.tapIr = .selftest ∧ t.np.porst = true ∧ t.lt = {} ∧ t.lg = {} ∧
        t.st = {} ∧ t.pa = {} ∧ t.fm = {} ∧ t.cu = {} ∧ t.gl = {}) ∧
    (s.np.porst = false → exec .selftest s = .next s)) ∧
  (∀ (n : BitVec 2) (v : Word),
    let free (s : State) : Prop := s.Canonical ∧ (s.port n.toNat).state = .off ∧ s.domainOff (portDomain n.toNat) = false ∧ s.cu.pair = .off ∧
      v.getLsbD 42 = false
    (v.getLsbD 3 = false → (v.getLsbD 4 = true → v.extractLsb' 0 2 ≠ 0) → HostDoes (fun h => .loopStart h n v) free
      fun s => (s.modPort n.toNat fun p => { p.loopKeys (v.extractLsb' 5 5) with
          txNext := 0, rxExp := 0, buffer := [], replayAt := none, nakAck := none, nak := false }).modLoop n.toNat fun _ =>
        ⟨v.extractLsb' 0 2, false, v.getLsbD 4, v.extractLsb' 5 5, v.extractLsb' 10 32, 1, 0, 0, 0, true, 0⟩) ∧
    (v.getLsbD 42 = false → HostDoes (fun h => .loopStart h n v) (fun s => (s.port n.toNat).state ≠ .off)
      fun s => s.modLoop n.toNat fun l => { l with state := 3, code := 1 }) ∧
    (v.getLsbD 2 = false → HostDoes (fun h => .loopRespond h n v) (fun s => free s ∧ (s.loopb n.toNat).respond = false)
      fun s => s.modLoop n.toNat fun l => { l with
        depth := v.extractLsb' 0 2, respond := true, pattern := v.getLsbD 4, lanes := v.extractLsb' 5 5,
        flits := v.extractLsb' 10 32 }) ∧
    HostDoes (fun h => .loopStop h n) (fun s => s.looping n.toNat = true)
      (fun s => (s.modLoop n.toNat fun l => { l with respond := false, running := false, state := 2, code := 9 }).modPort n.toNat
        fun p => { p with buffer := [], replayAt := none, nak := false }) ∧
    HostDoes (fun h => .loopStop h n) (fun s => s.looping n.toNat = false) id) ∧
  (∀ (n : BitVec 2) (k : BitVec 3) (blk : List Pam4), k.toNat < 5 → blk.length = 544 ∨ blk = [] →
    LineDoes (.prbs31BlockReceive n k blk) (fun s => (s.loopb n.toNat).running = true ∧ (s.loopb n.toNat).respond = false ∧
        (s.loopb n.toNat).pattern = true ∧ 2 ≤ (s.loopb n.toNat).depth.toNat ∧ (s.loopb n.toNat).lanes.getLsbD k.toNat = true ∧
        (s.loopb n.toNat).flits = 0)
      (fun s =>
        let x := prbsRaw ((s.port n.toNat).lane k.toNat).rxKey
        let good : Prop := blk = lineSyms x.2
        (s.modPort n.toNat fun p => p.modLane k.toNat fun l => { l with rxKey := x.1 }).modLoop n.toNat fun l =>
          { l with
            ok := if good then satInc l.ok else l.ok, bad := if good then l.bad else satInc l.bad, checked := l.checked + 1 }) ∧
    LineDoes (.prbs31BlockReceive n k blk) (fun s => (s.port n.toNat).state = .off ∧ (s.loopb n.toNat).respond = true)
      (fun s => s.modPort n.toNat fun p => { p with line := tset [] p.line k.toNat blk }) ∧
    LineDoes (.prbs31BlockReceive n k blk) (fun s => (s.loopb n.toNat).running = false ∧ (s.loopb n.toNat).respond = false) id) ∧
  (∀ (k : BitVec 1) (v : Word),
    (v.getLsbD 0 = true → HostDoes (fun h => .dloopEnWrite h k v)
      (fun s => s.Canonical ∧ (s.dloop k.toNat).en = false ∧ s.ts.dloops.all (fun p => !p.2.en) = true ∧ s.rn.groups = [] ∧
        (s.target (v.extractLsb' 1 8).toNat).enable = false ∧ (s.target (v.extractLsb' 1 8).toNat).held = [] ∧
        s.NoCandidate (v.extractLsb' 1 8).toNat)
      fun s => s.modDloop k.toNat fun d =>
        { d with
          en := true, target := v.extractLsb' 1 8, delay := v.extractLsb' 9 12, hold := v.extractLsb' 21 12, closing := false,
          claimed := none }) ∧
    (v.getLsbD 0 = false → HostDoes (fun h => .dloopEnWrite h k v) (fun s => (s.dloop k.toNat).en = false)
      fun s => s.modDloop k.toNat fun d =>
        { d with
          target := v.extractLsb' 1 8, delay := v.extractLsb' 9 12, hold := v.extractLsb' 21 12, closing := false,
          claimed := none }) ∧
    (∀ (s : State) (h : HpAttr), s.Canonical → s.Calm → s.LetIn h → (s.dloop k.toNat).en = true →
      v.getLsbD 0 = true ∨ (s.dloop k.toNat).claimed ≠ none →
      ∃ t, exec (.dloopEnWrite h k v) s = .next t ∧ t.dloop k.toNat = { s.dloop k.toNat with
        target := v.extractLsb' 1 8, delay := v.extractLsb' 9 12, hold := v.extractLsb' 21 12,
        closing := (s.dloop k.toNat).closing || !v.getLsbD 0 })) ∧
  (∀ (s : State) (k : BitVec 1) (e : Nat), s.Canonical → s.Calm → s.live = true → s.gb.enable = false → e < nEntries →
    let d := s.dloop k.toNat
    let n := d.target.toNat
    let g := s.target n
    d.en = true → d.closing = false → d.claimed = none → g.offered = some e → g.front = [e] → g.bands = [] →
    (s.entry e).state = .offered → (s.side e).placed = some d.target → (s.side e).holder = none → (s.side e).room = none →
    s.busy e = false → 16 * d.delay.toNat ≤ s.age g.offerAt →
    ∃ t, exec (.dloopClaim k) s = .next t ∧ s.EntryTakes t e { s.entry e with state := .claimed } ∧
      (t.side e).holder = some d.target ∧ t.dloop k.toNat = { d with claimed := some e, at_ := s.gl.time } ∧
      (t.target n).held = g.held ++ [⟨e, s.gl.time, g.svcTmo, false⟩] ∧ (t.target n).offered = none ∧
      t.rest = ({ s with ts.dloops := t.ts.dloops } : State).rest) ∧
  (∀ (s : State) (k : BitVec 1) (h : HeldEv), s.Canonical → s.Calm → s.live = true → s.gb.enable = false → h.cand < nEntries →
    let d := s.dloop k.toNat
    let n := d.target.toNat
    d.closing = false → d.claimed = some h.cand → s.NoCandidate n → (s.target n).held = [h] → (s.entry h.cand).state = .claimed →
    (s.side h.cand).placed = none → (s.side h.cand).holder = some d.target → (s.side h.cand).room = none →
    s.busy h.cand = false → (∀ m : BitVec 8, (∃ x ∈ (s.target m.toNat).held, x.cand = h.cand) → m = d.target) →
    (isWired h.cand = false ∨ s.wf.enabled = false) → 16 * d.hold.toNat ≤ s.age d.at_ →
    ∃ t, exec (.dloopComplete k) s = .next t ∧ s.EntryTakes t h.cand { s.entry h.cand with state := .idle } ∧
      (t.side h.cand).holder = none ∧ t.dloop k.toNat = { d with claimed := none } ∧ (t.target n).held = [] ∧
      t.rest = ({ s with ts.dloops := t.ts.dloops } : State).rest) ∧
  (∀ k : BitVec 1, CoreDoes (.dloopClaim k) (fun s => (s.dloop k.toNat).en = false) id ∧
    CoreDoes (.dloopComplete k) (fun s => (s.dloop k.toNat).claimed = none) id)
end

