-- ==== Sys2Proof/Laws/Table.lean ====
section
/-! SUPPORT. The laws of sparse tables: a read after a write, and that every operation of a table keeps the canonical form. -/
namespace Sys2Proof.Machine

variable {α : Type} [DecidableEq α] {d : α}

/-- Every key of the table is at least k. -/
def tabove (k : Nat) (t : Tbl α) : Prop := ∀ p ∈ t, k ≤ p.1

/-! ### The canonical form, one entry at a time -/

theorem twf_cons_iff (j : Nat) (v : α) (t : Tbl α) :
    twf d ((j, v) :: t) = true ↔ v ≠ d ∧ tabove (j + 1) t ∧ twf d t = true := by
  induction t generalizing j v with
  | nil => simp [twf, tabove]
  | cons p t ih =>
    obtain ⟨k, u⟩ := p
    simp only [twf, Bool.and_eq_true, decide_eq_true_eq, ih k u]
    constructor
    · rintro ⟨⟨hj, hv⟩, hu, ha, ht⟩
      refine ⟨hv, ?_, hu, ha, ht⟩
      intro q hq
      rcases List.mem_cons.1 hq with rfl | hq
      · exact hj
      · exact Nat.le_trans (Nat.le_trans hj (Nat.le_succ k)) (ha q hq)
    · rintro ⟨hv, ha, hu, hk, ht⟩
      exact ⟨⟨ha _ (List.mem_cons_self ..), hv⟩, hu, hk, ht⟩

@[simp] theorem twf_nil : twf d ([] : Tbl α) = true := rfl

theorem twf_tail {p : Nat × α} {t : Tbl α} (h : twf d (p :: t) = true) : twf d t = true :=
  ((twf_cons_iff p.1 p.2 t).1 h).2.2

omit [DecidableEq α] in
theorem tabove_mono {j k : Nat} {t : Tbl α} (hjk : j ≤ k) (h : tabove k t) : tabove j t :=
  fun p hp => Nat.le_trans hjk (h p hp)

/-! ### Reads -/

omit [DecidableEq α] in
@[simp] theorem tget_nil (k : Nat) : tget d ([] : Tbl α) k = d := rfl

omit [DecidableEq α] in
theorem tget_cons (j k : Nat) (v : α) (t : Tbl α) : tget d ((j, v) :: t) k = if j = k then v else tget d t k := by
  simp [tget]

omit [DecidableEq α] in
/-- What holds of the default and of every listed value holds of the value at any key. -/
theorem tget_of_all {P : α → Prop} {t : Tbl α} (hd : P d) (h : ∀ p ∈ t, P p.2) (k : Nat) : P (tget d t k) := by
  induction t with
  | nil => exact hd
  | cons p t ih =>
    rw [tget_cons]
    split
    · exact h p List.mem_cons_self
    · exact ih fun q hq => h q (List.mem_cons_of_mem p hq)

omit [DecidableEq α] in
theorem tget_below {k : Nat} {t : Tbl α} (h : tabove (k + 1) t) : tget d t k = d := by
  induction t with
  | nil => rfl
  | cons p t ih =>
    obtain ⟨j, v⟩ := p
    have hj : k + 1 ≤ j := h (j, v) (List.mem_cons_self ..)
    rw [tget_cons, if_neg (by omega)]
    exact ih fun q hq => h q (List.mem_cons_of_mem _ hq)

/-! ### Writes -/

theorem tabove_tset {j k : Nat} {v : α} {t : Tbl α} (hjk : j ≤ k) (h : tabove j t) : tabove j (tset d t k v) := by
  induction t with
  | nil => simp only [tset]; split <;> simp [tabove, hjk]
  | cons p t ih =>
    obtain ⟨i, u⟩ := p
    have hi : j ≤ i := h (i, u) (List.mem_cons_self ..)
    have ht : tabove j t := fun q hq => h q (List.mem_cons_of_mem _ hq)
    have hc : ∀ {q : Nat × α} {l : Tbl α}, j ≤ q.1 → tabove j l → tabove j (q :: l) := by
      intro q l hq hl x hx
      rcases List.mem_cons.1 hx with rfl | hx
      · exact hq
      · exact hl x hx
    simp only [tset]
    split
    · exact hc hi (ih ht)
    · split
      · split
        · exact ht
        · exact hc hjk ht
      · split
        · exact h
        · exact hc hjk h

/-- A write keeps the canonical form. -/
theorem twf_tset {t : Tbl α} (h : twf d t = true) (k : Nat) (v : α) : twf d (tset d t k v) = true := by
  induction t with
  | nil => simp only [tset]; split <;> simp_all [twf]
  | cons p t ih =>
    obtain ⟨j, u⟩ := p
    obtain ⟨hu, ha, ht⟩ := (twf_cons_iff j u t).1 h
    simp only [tset]
    split
    · next hjk => exact (twf_cons_iff ..).2 ⟨hu, tabove_tset (by omega) ha, ih ht⟩
    · split
      · next hjk =>
        subst hjk
        split
        · exact ht
        · next hv => exact (twf_cons_iff ..).2 ⟨hv, ha, ht⟩
      · split
        · exact h
        · next hlt hne hv =>
          refine (twf_cons_iff ..).2 ⟨hv, ?_, h⟩
          intro q hq
          rcases List.mem_cons.1 hq with rfl | hq
          · show k + 1 ≤ j; omega
          · have := ha q hq; omega

/-- A read of another key sees no write. -/
theorem tget_tset_other {t : Tbl α} (h : twf d t = true) {k m : Nat} (hm : m ≠ k) (v : α) :
    tget d (tset d t k v) m = tget d t m := by
  induction t with
  | nil =>
    simp only [tset]
    split
    · rfl
    · rw [tget_cons, if_neg (fun e => hm e.symm)]
  | cons p t ih =>
    obtain ⟨j, u⟩ := p
    obtain ⟨-, ha, ht⟩ := (twf_cons_iff j u t).1 h
    simp only [tset]
    split
    · rw [tget_cons, tget_cons, ih ht]
    · split
      · next hjk =>
        subst hjk
        split
        · rw [tget_cons, if_neg (fun e => hm e.symm)]
        · rw [tget_cons, tget_cons, if_neg (fun e => hm e.symm), if_neg (fun e => hm e.symm)]
      · split
        · rfl
        · rw [tget_cons, if_neg (fun e => hm e.symm)]

/-- A read of the key written gives the value written. -/
theorem tget_tset_self {t : Tbl α} (h : twf d t = true) (k : Nat) (v : α) : tget d (tset d t k v) k = v := by
  induction t with
  | nil => simp only [tset]; split <;> simp_all [tget]
  | cons p t ih =>
    obtain ⟨j, u⟩ := p
    obtain ⟨-, ha, ht⟩ := (twf_cons_iff j u t).1 h
    simp only [tset]
    split
    · rw [tget_cons, if_neg (by omega), ih ht]
    · split
      · next hjk =>
        subst hjk
        split
        · next hv => rw [hv, tget_below ha]
        · rw [tget_cons, if_pos rfl]
      · split
        · next hlt hne hv =>
          rw [hv, tget_cons, if_neg hne]
          exact tget_below fun q hq => by have := ha q hq; omega
        · rw [tget_cons, if_pos rfl]

theorem tget_tset {t : Tbl α} (h : twf d t = true) (k m : Nat) (v : α) :
    tget d (tset d t k v) m = if m = k then v else tget d t m := by
  split
  · next e => rw [e, tget_tset_self h]
  · next e => exact tget_tset_other h e v

/-- Two canonical tables that read alike at every key are the same data. -/
theorem twf_ext {t u : Tbl α} (ht : twf d t = true) (hu : twf d u = true) (h : ∀ k, tget d t k = tget d u k) : t = u := by
  induction t generalizing u with
  | nil =>
    cases u with
    | nil => rfl
    | cons p u =>
      obtain ⟨j, v⟩ := p
      have := h j
      rw [tget_cons, if_pos rfl, tget_nil] at this
      exact absurd this.symm ((twf_cons_iff j v u).1 hu).1
  | cons p t ih =>
    obtain ⟨j, v⟩ := p
    obtain ⟨hv, ha, ht'⟩ := (twf_cons_iff j v t).1 ht
    cases u with
    | nil =>
      have := h j
      rw [tget_cons, if_pos rfl, tget_nil] at this
      exact absurd this hv
    | cons q u =>
      obtain ⟨k, w⟩ := q
      obtain ⟨hw, hb, hu'⟩ := (twf_cons_iff k w u).1 hu
      have hjk : j = k := by
        rcases Nat.lt_trichotomy j k with hlt | he | hgt
        · have := h j
          rw [tget_cons, if_pos rfl, tget_cons, if_neg (by omega)] at this
          exact absurd (this.trans (tget_below fun q hq => by have := hb q hq; omega)) hv
        · exact he
        · have := h k
          rw [tget_cons, if_neg (by omega), tget_cons, if_pos rfl] at this
          exact absurd (this.symm.trans (tget_below fun q hq => by have := ha q hq; omega)) hw
      subst hjk
      have hvw : v = w := by simpa [tget_cons] using h j
      subst hvw
      congr 1
      refine ih ht' hu' fun m => ?_
      by_cases hm : j = m
      · subst hm; rw [tget_below ha, tget_below hb]
      · simpa [tget_cons, hm] using h m

/-- Writing what is there changes nothing. -/
@[simp] theorem tset_tget {t : Tbl α} (h : twf d t = true) (k : Nat) : tset d t k (tget d t k) = t :=
  twf_ext (twf_tset h ..) h fun m => by rw [tget_tset h]; split <;> simp_all

/-- The later of two writes of one key holds. -/
theorem tset_tset {t : Tbl α} (h : twf d t = true) (k : Nat) (v w : α) : tset d (tset d t k v) k w = tset d t k w :=
  twf_ext (twf_tset (twf_tset h ..) ..) (twf_tset h ..) fun m => by
    simp only [tget_tset (twf_tset h ..), tget_tset h]; split <;> rfl

/-- Writes of two keys commute. -/
theorem tset_comm {t : Tbl α} (h : twf d t = true) {k m : Nat} (hkm : k ≠ m) (v w : α) :
    tset d (tset d t k v) m w = tset d (tset d t m w) k v :=
  twf_ext (twf_tset (twf_tset h ..) ..) (twf_tset (twf_tset h ..) ..) fun i => by
    simp only [tget_tset (twf_tset h ..), tget_tset h]
    by_cases h1 : i = m <;> by_cases h2 : i = k <;> simp [h1, h2] <;> omega

/-! ### Changes of one value -/

theorem twf_tmod {t : Tbl α} (h : twf d t = true) (k : Nat) (f : α → α) : twf d (tmod d t k f) = true := twf_tset h ..

theorem tget_tmod_self {t : Tbl α} (h : twf d t = true) (k : Nat) (f : α → α) :
    tget d (tmod d t k f) k = f (tget d t k) := tget_tset_self h ..

theorem tget_tmod_other {t : Tbl α} (h : twf d t = true) {k m : Nat} (hm : m ≠ k) (f : α → α) :
    tget d (tmod d t k f) m = tget d t m := tget_tset_other h hm _

theorem tget_tmod {t : Tbl α} (h : twf d t = true) (k m : Nat) (f : α → α) :
    tget d (tmod d t k f) m = if m = k then f (tget d t m) else tget d t m := by
  split
  · next e => rw [e, tget_tmod_self h]
  · next e => exact tget_tmod_other h e f

theorem tmod_tmod {t : Tbl α} (h : twf d t = true) (k : Nat) (f g : α → α) :
    tmod d (tmod d t k f) k g = tmod d t k fun v => g (f v) := by
  rw [tmod, tget_tmod_self h, tmod, tset_tset h, tmod]

theorem tmod_same {t : Tbl α} (h : twf d t = true) {k : Nat} {f : α → α} (hf : f (tget d t k) = tget d t k) :
    tmod d t k f = t := by rw [tmod, hf, tset_tget h]

/-! ### Changes of every value and of a range -/

theorem tabove_tmap {k : Nat} {t : Tbl α} {f : Nat → α → α} (h : tabove k t) : tabove k (tmap d t f) := by
  intro p hp
  obtain ⟨q, hq, he⟩ := List.mem_filterMap.1 hp
  dsimp only at he
  split at he
  · cases he
  · cases he; exact h q hq

/-- A change of every listed value keeps the canonical form. -/
theorem twf_tmap {t : Tbl α} (h : twf d t = true) (f : Nat → α → α) : twf d (tmap d t f) = true := by
  induction t with
  | nil => rfl
  | cons p t ih =>
    obtain ⟨j, v⟩ := p
    obtain ⟨-, ha, ht⟩ := (twf_cons_iff j v t).1 h
    by_cases hv : f j v = d
    · have : tmap d ((j, v) :: t) f = tmap d t f := by simp [tmap, hv]
      rw [this]; exact ih ht
    · have : tmap d ((j, v) :: t) f = (j, f j v) :: tmap d t f := by simp [tmap, hv]
      rw [this]; exact (twf_cons_iff ..).2 ⟨hv, tabove_tmap ha, ih ht⟩

/-- What a changed table reads as, where the change keeps the value of an unlisted key. -/
theorem tget_tmap {t : Tbl α} (h : twf d t = true) {f : Nat → α → α} (k : Nat) (hd : f k d = d) :
    tget d (tmap d t f) k = f k (tget d t k) := by
  induction t with
  | nil => simp [tmap, hd]
  | cons p t ih =>
    obtain ⟨j, v⟩ := p
    obtain ⟨-, ha, ht⟩ := (twf_cons_iff j v t).1 h
    by_cases hv : f j v = d
    · have : tmap d ((j, v) :: t) f = tmap d t f := by simp [tmap, hv]
      rw [this, ih ht, tget_cons]
      split
      · next e => subst e; rw [tget_below ha, hd, hv]
      · rfl
    · have : tmap d ((j, v) :: t) f = (j, f j v) :: tmap d t f := by simp [tmap, hv]
      rw [this, tget_cons, tget_cons]
      split
      · next e => rw [e]
      · exact ih ht

theorem tabove_tfill {f : Nat → α → α} (n : Nat) {j k : Nat} {t : Tbl α} (hjk : j ≤ k) (h : tabove j t) :
    tabove j (tfill d f n k t) := by
  induction n generalizing k t with
  | zero => simpa [tfill] using h
  | succ n ih =>
    have hc : ∀ {q : Nat × α} {l : Tbl α}, j ≤ q.1 → tabove j l → tabove j (q :: l) := by
      intro q l hq hl x hx
      rcases List.mem_cons.1 hx with rfl | hx
      · exact hq
      · exact hl x hx
    cases t with
    | nil =>
      simp only [tfill]
      split
      · exact ih (by omega) h
      · exact hc hjk (ih (by omega) h)
    | cons p t =>
      obtain ⟨i, u⟩ := p
      have ht : tabove j t := fun q hq => h q (List.mem_cons_of_mem _ hq)
      simp only [tfill]
      split
      · split
        · exact ih (by omega) ht
        · exact hc hjk (ih (by omega) ht)
      · split
        · exact ih (by omega) h
        · exact hc hjk (ih (by omega) h)

theorem twf_tfill {f : Nat → α → α} (n : Nat) {k : Nat} {t : Tbl α} (h : twf d t = true) (hk : tabove k t) :
    twf d (tfill d f n k t) = true := by
  induction n generalizing k t with
  | zero => simpa [tfill] using h
  | succ n ih =>
    cases t with
    | nil =>
      have h0 : tabove (k + 1) ([] : Tbl α) := by simp [tabove]
      simp only [tfill]
      split
      · exact ih h h0
      · next hv => exact (twf_cons_iff ..).2 ⟨hv, tabove_tfill n (Nat.le_refl _) h0, ih h h0⟩
    | cons p t =>
      obtain ⟨i, u⟩ := p
      obtain ⟨-, ha, ht⟩ := (twf_cons_iff i u t).1 h
      simp only [tfill]
      split
      · next e =>
        subst e
        split
        · exact ih ht ha
        · next hv => exact (twf_cons_iff ..).2 ⟨hv, tabove_tfill n (Nat.le_refl _) ha, ih ht ha⟩
      · next e =>
        have hi : k ≤ i := hk (i, u) (List.mem_cons_self ..)
        have h1 : tabove (k + 1) ((i, u) :: t) := by
          intro q hq
          rcases List.mem_cons.1 hq with rfl | hq
          · show k + 1 ≤ i; omega
          · have := ha q hq; omega
        split
        · exact ih h h1
        · next hv => exact (twf_cons_iff ..).2 ⟨hv, tabove_tfill n (Nat.le_refl _) h1, ih h h1⟩

theorem tget_tfill {f : Nat → α → α} (n : Nat) {k m : Nat} {t : Tbl α} (h : twf d t = true) (hk : tabove k t) :
    tget d (tfill d f n k t) m = if k ≤ m ∧ m < k + n then f m (tget d t m) else tget d t m := by
  induction n generalizing k t with
  | zero => rw [tfill, if_neg (by omega)]
  | succ n ih =>
    have key : ∀ (x : α) (u : Tbl α), twf d u = true → tabove (k + 1) u → (∀ i, k < i → tget d u i = tget d t i) →
        (m < k → tget d u m = tget d t m) → x = f k (tget d t k) →
        tget d (if x = d then tfill d f n (k + 1) u else (k, x) :: tfill d f n (k + 1) u) m =
          if k ≤ m ∧ m < k + (n + 1) then f m (tget d t m) else tget d t m := by
      intro x u hu hau hget hlow hx
      have hval : tget d (if x = d then tfill d f n (k + 1) u else (k, x) :: tfill d f n (k + 1) u) m =
          if m = k then x else tget d (tfill d f n (k + 1) u) m := by
        by_cases hxd : x = d
        · rw [if_pos hxd]
          split
          · next e => rw [e, hxd]; exact tget_below (tabove_tfill n (Nat.le_refl _) hau)
          · rfl
        · rw [if_neg hxd, tget_cons]
          by_cases e : k = m
          · rw [if_pos e, if_pos e.symm]
          · rw [if_neg e, if_neg fun h => e h.symm]
      rw [hval, ih hu hau]
      by_cases e : m = k
      · subst e; rw [if_pos rfl, if_pos (by omega), hx]
      · rw [if_neg e]
        by_cases h1 : k + 1 ≤ m ∧ m < k + 1 + n
        · rw [if_pos h1, if_pos (by omega), hget m (by omega)]
        · rw [if_neg h1, if_neg (by omega)]
          by_cases h2 : m < k
          · exact hlow h2
          · exact hget m (by omega)
    cases t with
    | nil => exact key (f k d) [] h (by simp [tabove]) (fun _ _ => rfl) (fun _ => rfl) rfl
    | cons p t =>
      obtain ⟨i, u⟩ := p
      obtain ⟨-, ha, ht⟩ := (twf_cons_iff i u t).1 h
      have hi : k ≤ i := hk (i, u) (List.mem_cons_self ..)
      by_cases e : i = k
      · subst e
        have := key (f i u) t ht ha (fun j hj => by rw [tget_cons, if_neg (by omega)])
          (fun hj => by rw [tget_cons, if_neg (by omega)]) (by rw [tget_cons, if_pos rfl])
        simpa [tfill] using this
      · have h1 : tabove (k + 1) ((i, u) :: t) := by
          intro q hq
          rcases List.mem_cons.1 hq with rfl | hq
          · show k + 1 ≤ i; omega
          · have := ha q hq; omega
        have := key (f k d) ((i, u) :: t) h h1 (fun _ _ => rfl) (fun _ => rfl) (by rw [tget_below h1])
        simpa [tfill, e] using this

theorem split_below {t : Tbl α} (h : twf d t = true) (lo : Nat) :
    twf d (t.dropWhile fun p => p.1 < lo) = true ∧ tabove lo (t.dropWhile fun p => p.1 < lo) := by
  induction t with
  | nil => simp [tabove]
  | cons p t ih =>
    obtain ⟨j, v⟩ := p
    obtain ⟨-, ha, ht⟩ := (twf_cons_iff j v t).1 h
    by_cases hj : j < lo
    · simpa [List.dropWhile_cons, hj] using ih ht
    · simp only [List.dropWhile_cons, hj, decide_false, Bool.false_eq_true, if_false]
      refine ⟨h, fun q hq => ?_⟩
      rcases List.mem_cons.1 hq with rfl | hq
      · show lo ≤ j; omega
      · have := ha q hq; omega

/-- A change of a range of keys keeps the canonical form. -/
theorem twf_trange {t : Tbl α} (h : twf d t = true) (lo n : Nat) (f : Nat → α → α) : twf d (trange d t lo n f) = true := by
  obtain ⟨hd, ha⟩ := split_below h lo
  have hf := twf_tfill (f := f) n hd ha
  have hb := tabove_tfill (d := d) (f := f) n (Nat.le_refl lo) ha
  clear hd ha
  unfold trange
  generalize tfill d f n lo (t.dropWhile fun p => p.1 < lo) = u at hf hb
  induction t with
  | nil => simpa using hf
  | cons p t ih =>
    obtain ⟨j, v⟩ := p
    obtain ⟨hv, ha, ht⟩ := (twf_cons_iff j v t).1 h
    by_cases hj : j < lo
    · simp only [List.takeWhile_cons, hj, decide_true, if_true, List.cons_append]
      refine (twf_cons_iff ..).2 ⟨hv, ?_, ih ht⟩
      intro q hq
      rcases List.mem_append.1 hq with hq | hq
      · exact ha q ((List.takeWhile_sublist _).mem hq)
      · have := hb q hq; omega
    · simpa [List.takeWhile_cons, hj] using hf

/-- What a table reads as after a change of the n keys from lo. -/
theorem tget_trange {t : Tbl α} (h : twf d t = true) (lo n m : Nat) (f : Nat → α → α) :
    tget d (trange d t lo n f) m = if lo ≤ m ∧ m < lo + n then f m (tget d t m) else tget d t m := by
  unfold trange
  induction t with
  | nil => simpa using tget_tfill (f := f) (m := m) n (t := []) (k := lo) h (by simp [tabove])
  | cons p t ih =>
    obtain ⟨j, v⟩ := p
    obtain ⟨hv, ha, ht⟩ := (twf_cons_iff j v t).1 h
    by_cases hj : j < lo
    · simp only [List.takeWhile_cons, List.dropWhile_cons, hj, decide_true, if_true, List.cons_append]
      rw [tget_cons, tget_cons, ih ht]
      by_cases e : j = m
      · rw [if_pos e, if_pos e, if_neg (by omega)]
      · rw [if_neg e, if_neg e]
    · simp only [List.takeWhile_cons, List.dropWhile_cons, hj, decide_false, Bool.false_eq_true, if_false, List.nil_append]
      refine tget_tfill n h fun q hq => ?_
      rcases List.mem_cons.1 hq with rfl | hq
      · show lo ≤ j; omega
      · have := ha q hq; omega

end Sys2Proof.Machine
end

