-- ==== Sys2Proof/Laws/State.lean ====
section
/-! SUPPORT. What each named write of State leaves alone, and that it keeps every table canonical: a change of one array is seen by no read
of another, and by a read of its own only at the key written. -/
namespace Sys2Proof.Machine

variable {s : State}

/-! ### setEntry -/

@[simp] theorem State.setEntry_hp (e : Nat) (v : Entry) : (s.setEntry e v).hp = s.hp := rfl
@[simp] theorem State.setEntry_ep (e : Nat) (v : Entry) : (s.setEntry e v).ep = s.ep := rfl
@[simp] theorem State.setEntry_tg (e : Nat) (v : Entry) : (s.setEntry e v).tg = s.tg := rfl
@[simp] theorem State.setEntry_wf (e : Nat) (v : Entry) : (s.setEntry e v).wf = s.wf := rfl
@[simp] theorem State.setEntry_mi (e : Nat) (v : Entry) : (s.setEntry e v).mi = s.mi := rfl
@[simp] theorem State.setEntry_lg (e : Nat) (v : Entry) : (s.setEntry e v).lg = s.lg := rfl
@[simp] theorem State.setEntry_pa (e : Nat) (v : Entry) : (s.setEntry e v).pa = s.pa := rfl
@[simp] theorem State.setEntry_st (e : Nat) (v : Entry) : (s.setEntry e v).st = s.st := rfl
@[simp] theorem State.setEntry_ab (e : Nat) (v : Entry) : (s.setEntry e v).ab = s.ab := rfl
@[simp] theorem State.setEntry_rn (e : Nat) (v : Entry) : (s.setEntry e v).rn = s.rn := rfl
@[simp] theorem State.setEntry_cf (e : Nat) (v : Entry) : (s.setEntry e v).cf = s.cf := rfl
@[simp] theorem State.setEntry_fm (e : Nat) (v : Entry) : (s.setEntry e v).fm = s.fm := rfl
@[simp] theorem State.setEntry_cu (e : Nat) (v : Entry) : (s.setEntry e v).cu = s.cu := rfl
@[simp] theorem State.setEntry_er (e : Nat) (v : Entry) : (s.setEntry e v).er = s.er := rfl
@[simp] theorem State.setEntry_np (e : Nat) (v : Entry) : (s.setEntry e v).np = s.np := rfl
@[simp] theorem State.setEntry_ts (e : Nat) (v : Entry) : (s.setEntry e v).ts = s.ts := rfl
@[simp] theorem State.setEntry_gb (e : Nat) (v : Entry) : (s.setEntry e v).gb = s.gb := rfl
@[simp] theorem State.setEntry_gl (e : Nat) (v : Entry) : (s.setEntry e v).gl = s.gl := rfl
@[simp] theorem State.setEntry_free (e : Nat) (v : Entry) : (s.setEntry e v).free = s.free := rfl
@[simp] theorem State.setEntry_blocked (e : Nat) (v : Entry) : (s.setEntry e v).blocked = s.blocked := rfl
@[simp] theorem State.setEntry_pending (e : Nat) (v : Entry) : (s.setEntry e v).pending = s.pending := rfl
@[simp] theorem State.setEntry_lt_word1 (e : Nat) (v : Entry) : (s.setEntry e v).lt.word1 = s.lt.word1 := rfl
@[simp] theorem State.setEntry_lt_side (e : Nat) (v : Entry) : (s.setEntry e v).lt.side = s.lt.side := rfl
@[simp] theorem State.setEntry_lt_dispatch (e : Nat) (v : Entry) : (s.setEntry e v).lt.dispatch = s.lt.dispatch := rfl
@[simp] theorem State.setEntry_lt_stepTraps (e : Nat) (v : Entry) : (s.setEntry e v).lt.stepTraps = s.lt.stepTraps := rfl
@[simp] theorem State.setEntry_lt_itinTraps (e : Nat) (v : Entry) : (s.setEntry e v).lt.itinTraps = s.lt.itinTraps := rfl
@[simp] theorem State.setEntry_lt_srcPend (e : Nat) (v : Entry) : (s.setEntry e v).lt.srcPend = s.lt.srcPend := rfl
@[simp] theorem State.setEntry_lt_seed (e : Nat) (v : Entry) : (s.setEntry e v).lt.seed = s.lt.seed := rfl
@[simp] theorem State.setEntry_lt_scramble (e : Nat) (v : Entry) : (s.setEntry e v).lt.scramble = s.lt.scramble := rfl
@[simp] theorem State.setEntry_lt_reject (e : Nat) (v : Entry) : (s.setEntry e v).lt.reject = s.lt.reject := rfl
@[simp] theorem State.setEntry_side (e : Nat) (v : Entry) (e' : Nat) : (s.setEntry e v).side e' = s.side e' := rfl
@[simp] theorem State.setEntry_dlist (e : Nat) (v : Entry) (b' : Nat) : (s.setEntry e v).dlist b' = s.dlist b' := rfl
@[simp] theorem State.setEntry_ctx (e : Nat) (v : Entry) (c' : Nat) : (s.setEntry e v).ctx c' = s.ctx c' := rfl
@[simp] theorem State.setEntry_ctxLock (e : Nat) (v : Entry) (c' : Nat) : (s.setEntry e v).ctxLock c' = s.ctxLock c' := rfl
@[simp] theorem State.setEntry_ctxWait (e : Nat) (v : Entry) (c' : Nat) : (s.setEntry e v).ctxWait c' = s.ctxWait c' := rfl
@[simp] theorem State.setEntry_target (e : Nat) (v : Entry) (t' : Nat) : (s.setEntry e v).target t' = s.target t' := rfl
@[simp] theorem State.setEntry_group (e : Nat) (v : Entry) (g' : Nat) : (s.setEntry e v).group g' = s.group g' := rfl
@[simp] theorem State.setEntry_visitor (e : Nat) (v : Entry) (v' : Nat) : (s.setEntry e v).visitor v' = s.visitor v' := rfl
@[simp] theorem State.setEntry_fn (e : Nat) (v : Entry) (f' : Nat) : (s.setEntry e v).fn f' = s.fn f' := rfl
@[simp] theorem State.setEntry_port (e : Nat) (v : Entry) (n' : Nat) : (s.setEntry e v).port n' = s.port n' := rfl
@[simp] theorem State.setEntry_peer (e : Nat) (v : Entry) (b' : Nat) : (s.setEntry e v).peer b' = s.peer b' := rfl
@[simp] theorem State.setEntry_queue (e : Nat) (v : Entry) (k' : Nat) : (s.setEntry e v).queue k' = s.queue k' := rfl
@[simp] theorem State.setEntry_porter (e : Nat) (v : Entry) (k' p' : Nat) : (s.setEntry e v).porter k' p' = s.porter k' p' := rfl
@[simp] theorem State.setEntry_chan (e : Nat) (v : Entry) (c' : Nat) : (s.setEntry e v).chan c' = s.chan c' := rfl
@[simp] theorem State.setEntry_chCfg (e : Nat) (v : Entry) (c' : Nat) : (s.setEntry e v).chCfg c' = s.chCfg c' := rfl
@[simp] theorem State.setEntry_region (e : Nat) (v : Entry) (n' : Nat) : (s.setEntry e v).region n' = s.region n' := rfl
@[simp] theorem State.setEntry_crfClass (e : Nat) (v : Entry) (c' : Nat) : (s.setEntry e v).crfClass c' = s.crfClass c' := rfl
@[simp] theorem State.setEntry_loopb (e : Nat) (v : Entry) (n' : Nat) : (s.setEntry e v).loopb n' = s.loopb n' := rfl
@[simp] theorem State.setEntry_dloop (e : Nat) (v : Entry) (k' : Nat) : (s.setEntry e v).dloop k' = s.dloop k' := rfl
@[simp] theorem State.setEntry_gbRange (e : Nat) (v : Entry) (k' : Nat) : (s.setEntry e v).gbRange k' = s.gbRange k' := rfl
@[simp] theorem State.setEntry_curve (e : Nat) (v : Entry) (k' st' : Nat) : (s.setEntry e v).curve k' st' = s.curve k' st' := rfl
@[simp] theorem State.setEntry_keyWindow (e : Nat) (v : Entry) (w' : Nat) : (s.setEntry e v).keyWindow w' = s.keyWindow w' := rfl
@[simp] theorem State.setEntry_levels (e : Nat) (v : Entry) (a' : Nat) : (s.setEntry e v).levels a' = s.levels a' := rfl
@[simp] theorem State.setEntry_ranks (e : Nat) (v : Entry) (a' : Nat) : (s.setEntry e v).ranks a' = s.ranks a' := rfl
@[simp] theorem State.setEntry_storeWord (e : Nat) (v : Entry) (i' : Nat) : (s.setEntry e v).storeWord i' = s.storeWord i' := rfl
@[simp] theorem State.setEntry_run (e : Nat) (v : Entry) (r' : RunRef) : (s.setEntry e v).run r' = s.run r' := rfl

/-! ### modSide -/

@[simp] theorem State.modSide_hp (e : Nat) (f : Side → Side) : (s.modSide e f).hp = s.hp := rfl
@[simp] theorem State.modSide_ep (e : Nat) (f : Side → Side) : (s.modSide e f).ep = s.ep := rfl
@[simp] theorem State.modSide_tg (e : Nat) (f : Side → Side) : (s.modSide e f).tg = s.tg := rfl
@[simp] theorem State.modSide_wf (e : Nat) (f : Side → Side) : (s.modSide e f).wf = s.wf := rfl
@[simp] theorem State.modSide_mi (e : Nat) (f : Side → Side) : (s.modSide e f).mi = s.mi := rfl
@[simp] theorem State.modSide_lg (e : Nat) (f : Side → Side) : (s.modSide e f).lg = s.lg := rfl
@[simp] theorem State.modSide_pa (e : Nat) (f : Side → Side) : (s.modSide e f).pa = s.pa := rfl
@[simp] theorem State.modSide_st (e : Nat) (f : Side → Side) : (s.modSide e f).st = s.st := rfl
@[simp] theorem State.modSide_ab (e : Nat) (f : Side → Side) : (s.modSide e f).ab = s.ab := rfl
@[simp] theorem State.modSide_rn (e : Nat) (f : Side → Side) : (s.modSide e f).rn = s.rn := rfl
@[simp] theorem State.modSide_cf (e : Nat) (f : Side → Side) : (s.modSide e f).cf = s.cf := rfl
@[simp] theorem State.modSide_fm (e : Nat) (f : Side → Side) : (s.modSide e f).fm = s.fm := rfl
@[simp] theorem State.modSide_cu (e : Nat) (f : Side → Side) : (s.modSide e f).cu = s.cu := rfl
@[simp] theorem State.modSide_er (e : Nat) (f : Side → Side) : (s.modSide e f).er = s.er := rfl
@[simp] theorem State.modSide_np (e : Nat) (f : Side → Side) : (s.modSide e f).np = s.np := rfl
@[simp] theorem State.modSide_ts (e : Nat) (f : Side → Side) : (s.modSide e f).ts = s.ts := rfl
@[simp] theorem State.modSide_gb (e : Nat) (f : Side → Side) : (s.modSide e f).gb = s.gb := rfl
@[simp] theorem State.modSide_gl (e : Nat) (f : Side → Side) : (s.modSide e f).gl = s.gl := rfl
@[simp] theorem State.modSide_free (e : Nat) (f : Side → Side) : (s.modSide e f).free = s.free := rfl
@[simp] theorem State.modSide_blocked (e : Nat) (f : Side → Side) : (s.modSide e f).blocked = s.blocked := rfl
@[simp] theorem State.modSide_pending (e : Nat) (f : Side → Side) : (s.modSide e f).pending = s.pending := rfl
@[simp] theorem State.modSide_lt_entries (e : Nat) (f : Side → Side) : (s.modSide e f).lt.entries = s.lt.entries := rfl
@[simp] theorem State.modSide_lt_word1 (e : Nat) (f : Side → Side) : (s.modSide e f).lt.word1 = s.lt.word1 := rfl
@[simp] theorem State.modSide_lt_dispatch (e : Nat) (f : Side → Side) : (s.modSide e f).lt.dispatch = s.lt.dispatch := rfl
@[simp] theorem State.modSide_lt_stepTraps (e : Nat) (f : Side → Side) : (s.modSide e f).lt.stepTraps = s.lt.stepTraps := rfl
@[simp] theorem State.modSide_lt_itinTraps (e : Nat) (f : Side → Side) : (s.modSide e f).lt.itinTraps = s.lt.itinTraps := rfl
@[simp] theorem State.modSide_lt_srcPend (e : Nat) (f : Side → Side) : (s.modSide e f).lt.srcPend = s.lt.srcPend := rfl
@[simp] theorem State.modSide_lt_seed (e : Nat) (f : Side → Side) : (s.modSide e f).lt.seed = s.lt.seed := rfl
@[simp] theorem State.modSide_lt_scramble (e : Nat) (f : Side → Side) : (s.modSide e f).lt.scramble = s.lt.scramble := rfl
@[simp] theorem State.modSide_lt_reject (e : Nat) (f : Side → Side) : (s.modSide e f).lt.reject = s.lt.reject := rfl
@[simp] theorem State.modSide_entry (e : Nat) (f : Side → Side) (e' : Nat) : (s.modSide e f).entry e' = s.entry e' := rfl
@[simp] theorem State.modSide_dlist (e : Nat) (f : Side → Side) (b' : Nat) : (s.modSide e f).dlist b' = s.dlist b' := rfl
@[simp] theorem State.modSide_ctx (e : Nat) (f : Side → Side) (c' : Nat) : (s.modSide e f).ctx c' = s.ctx c' := rfl
@[simp] theorem State.modSide_ctxLock (e : Nat) (f : Side → Side) (c' : Nat) : (s.modSide e f).ctxLock c' = s.ctxLock c' := rfl
@[simp] theorem State.modSide_ctxWait (e : Nat) (f : Side → Side) (c' : Nat) : (s.modSide e f).ctxWait c' = s.ctxWait c' := rfl
@[simp] theorem State.modSide_target (e : Nat) (f : Side → Side) (t' : Nat) : (s.modSide e f).target t' = s.target t' := rfl
@[simp] theorem State.modSide_group (e : Nat) (f : Side → Side) (g' : Nat) : (s.modSide e f).group g' = s.group g' := rfl
@[simp] theorem State.modSide_visitor (e : Nat) (f : Side → Side) (v' : Nat) : (s.modSide e f).visitor v' = s.visitor v' := rfl
@[simp] theorem State.modSide_fn (e : Nat) (f : Side → Side) (f' : Nat) : (s.modSide e f).fn f' = s.fn f' := rfl
@[simp] theorem State.modSide_port (e : Nat) (f : Side → Side) (n' : Nat) : (s.modSide e f).port n' = s.port n' := rfl
@[simp] theorem State.modSide_peer (e : Nat) (f : Side → Side) (b' : Nat) : (s.modSide e f).peer b' = s.peer b' := rfl
@[simp] theorem State.modSide_queue (e : Nat) (f : Side → Side) (k' : Nat) : (s.modSide e f).queue k' = s.queue k' := rfl
@[simp] theorem State.modSide_porter (e : Nat) (f : Side → Side) (k' p' : Nat) : (s.modSide e f).porter k' p' = s.porter k' p' := rfl
@[simp] theorem State.modSide_chan (e : Nat) (f : Side → Side) (c' : Nat) : (s.modSide e f).chan c' = s.chan c' := rfl
@[simp] theorem State.modSide_chCfg (e : Nat) (f : Side → Side) (c' : Nat) : (s.modSide e f).chCfg c' = s.chCfg c' := rfl
@[simp] theorem State.modSide_region (e : Nat) (f : Side → Side) (n' : Nat) : (s.modSide e f).region n' = s.region n' := rfl
@[simp] theorem State.modSide_crfClass (e : Nat) (f : Side → Side) (c' : Nat) : (s.modSide e f).crfClass c' = s.crfClass c' := rfl
@[simp] theorem State.modSide_loopb (e : Nat) (f : Side → Side) (n' : Nat) : (s.modSide e f).loopb n' = s.loopb n' := rfl
@[simp] theorem State.modSide_dloop (e : Nat) (f : Side → Side) (k' : Nat) : (s.modSide e f).dloop k' = s.dloop k' := rfl
@[simp] theorem State.modSide_gbRange (e : Nat) (f : Side → Side) (k' : Nat) : (s.modSide e f).gbRange k' = s.gbRange k' := rfl
@[simp] theorem State.modSide_curve (e : Nat) (f : Side → Side) (k' st' : Nat) : (s.modSide e f).curve k' st' = s.curve k' st' := rfl
@[simp] theorem State.modSide_keyWindow (e : Nat) (f : Side → Side) (w' : Nat) : (s.modSide e f).keyWindow w' = s.keyWindow w' := rfl
@[simp] theorem State.modSide_levels (e : Nat) (f : Side → Side) (a' : Nat) : (s.modSide e f).levels a' = s.levels a' := rfl
@[simp] theorem State.modSide_ranks (e : Nat) (f : Side → Side) (a' : Nat) : (s.modSide e f).ranks a' = s.ranks a' := rfl
@[simp] theorem State.modSide_storeWord (e : Nat) (f : Side → Side) (i' : Nat) : (s.modSide e f).storeWord i' = s.storeWord i' := rfl
@[simp] theorem State.modSide_run (e : Nat) (f : Side → Side) (r' : RunRef) : (s.modSide e f).run r' = s.run r' := rfl

/-! ### modDlist -/

@[simp] theorem State.modDlist_hp (b : Nat) (f : List Nat → List Nat) : (s.modDlist b f).hp = s.hp := rfl
@[simp] theorem State.modDlist_ep (b : Nat) (f : List Nat → List Nat) : (s.modDlist b f).ep = s.ep := rfl
@[simp] theorem State.modDlist_tg (b : Nat) (f : List Nat → List Nat) : (s.modDlist b f).tg = s.tg := rfl
@[simp] theorem State.modDlist_wf (b : Nat) (f : List Nat → List Nat) : (s.modDlist b f).wf = s.wf := rfl
@[simp] theorem State.modDlist_mi (b : Nat) (f : List Nat → List Nat) : (s.modDlist b f).mi = s.mi := rfl
@[simp] theorem State.modDlist_lg (b : Nat) (f : List Nat → List Nat) : (s.modDlist b f).lg = s.lg := rfl
@[simp] theorem State.modDlist_pa (b : Nat) (f : List Nat → List Nat) : (s.modDlist b f).pa = s.pa := rfl
@[simp] theorem State.modDlist_st (b : Nat) (f : List Nat → List Nat) : (s.modDlist b f).st = s.st := rfl
@[simp] theorem State.modDlist_ab (b : Nat) (f : List Nat → List Nat) : (s.modDlist b f).ab = s.ab := rfl
@[simp] theorem State.modDlist_rn (b : Nat) (f : List Nat → List Nat) : (s.modDlist b f).rn = s.rn := rfl
@[simp] theorem State.modDlist_cf (b : Nat) (f : List Nat → List Nat) : (s.modDlist b f).cf = s.cf := rfl
@[simp] theorem State.modDlist_fm (b : Nat) (f : List Nat → List Nat) : (s.modDlist b f).fm = s.fm := rfl
@[simp] theorem State.modDlist_cu (b : Nat) (f : List Nat → List Nat) : (s.modDlist b f).cu = s.cu := rfl
@[simp] theorem State.modDlist_er (b : Nat) (f : List Nat → List Nat) : (s.modDlist b f).er = s.er := rfl
@[simp] theorem State.modDlist_np (b : Nat) (f : List Nat → List Nat) : (s.modDlist b f).np = s.np := rfl
@[simp] theorem State.modDlist_ts (b : Nat) (f : List Nat → List Nat) : (s.modDlist b f).ts = s.ts := rfl
@[simp] theorem State.modDlist_gb (b : Nat) (f : List Nat → List Nat) : (s.modDlist b f).gb = s.gb := rfl
@[simp] theorem State.modDlist_gl (b : Nat) (f : List Nat → List Nat) : (s.modDlist b f).gl = s.gl := rfl
@[simp] theorem State.modDlist_free (b : Nat) (f : List Nat → List Nat) : (s.modDlist b f).free = s.free := rfl
@[simp] theorem State.modDlist_blocked (b : Nat) (f : List Nat → List Nat) : (s.modDlist b f).blocked = s.blocked := rfl
@[simp] theorem State.modDlist_pending (b : Nat) (f : List Nat → List Nat) : (s.modDlist b f).pending = s.pending := rfl
@[simp] theorem State.modDlist_lt_entries (b : Nat) (f : List Nat → List Nat) : (s.modDlist b f).lt.entries = s.lt.entries := rfl
@[simp] theorem State.modDlist_lt_word1 (b : Nat) (f : List Nat → List Nat) : (s.modDlist b f).lt.word1 = s.lt.word1 := rfl
@[simp] theorem State.modDlist_lt_side (b : Nat) (f : List Nat → List Nat) : (s.modDlist b f).lt.side = s.lt.side := rfl
@[simp] theorem State.modDlist_lt_stepTraps (b : Nat) (f : List Nat → List Nat) : (s.modDlist b f).lt.stepTraps = s.lt.stepTraps := rfl
@[simp] theorem State.modDlist_lt_itinTraps (b : Nat) (f : List Nat → List Nat) : (s.modDlist b f).lt.itinTraps = s.lt.itinTraps := rfl
@[simp] theorem State.modDlist_lt_srcPend (b : Nat) (f : List Nat → List Nat) : (s.modDlist b f).lt.srcPend = s.lt.srcPend := rfl
@[simp] theorem State.modDlist_lt_seed (b : Nat) (f : List Nat → List Nat) : (s.modDlist b f).lt.seed = s.lt.seed := rfl
@[simp] theorem State.modDlist_lt_scramble (b : Nat) (f : List Nat → List Nat) : (s.modDlist b f).lt.scramble = s.lt.scramble := rfl
@[simp] theorem State.modDlist_lt_reject (b : Nat) (f : List Nat → List Nat) : (s.modDlist b f).lt.reject = s.lt.reject := rfl
@[simp] theorem State.modDlist_entry (b : Nat) (f : List Nat → List Nat) (e' : Nat) : (s.modDlist b f).entry e' = s.entry e' := rfl
@[simp] theorem State.modDlist_side (b : Nat) (f : List Nat → List Nat) (e' : Nat) : (s.modDlist b f).side e' = s.side e' := rfl
@[simp] theorem State.modDlist_ctx (b : Nat) (f : List Nat → List Nat) (c' : Nat) : (s.modDlist b f).ctx c' = s.ctx c' := rfl
@[simp] theorem State.modDlist_ctxLock (b : Nat) (f : List Nat → List Nat) (c' : Nat) : (s.modDlist b f).ctxLock c' = s.ctxLock c' := rfl
@[simp] theorem State.modDlist_ctxWait (b : Nat) (f : List Nat → List Nat) (c' : Nat) : (s.modDlist b f).ctxWait c' = s.ctxWait c' := rfl
@[simp] theorem State.modDlist_target (b : Nat) (f : List Nat → List Nat) (t' : Nat) : (s.modDlist b f).target t' = s.target t' := rfl
@[simp] theorem State.modDlist_group (b : Nat) (f : List Nat → List Nat) (g' : Nat) : (s.modDlist b f).group g' = s.group g' := rfl
@[simp] theorem State.modDlist_visitor (b : Nat) (f : List Nat → List Nat) (v' : Nat) : (s.modDlist b f).visitor v' = s.visitor v' := rfl
@[simp] theorem State.modDlist_fn (b : Nat) (f : List Nat → List Nat) (f' : Nat) : (s.modDlist b f).fn f' = s.fn f' := rfl
@[simp] theorem State.modDlist_port (b : Nat) (f : List Nat → List Nat) (n' : Nat) : (s.modDlist b f).port n' = s.port n' := rfl
@[simp] theorem State.modDlist_peer (b : Nat) (f : List Nat → List Nat) (b' : Nat) : (s.modDlist b f).peer b' = s.peer b' := rfl
@[simp] theorem State.modDlist_queue (b : Nat) (f : List Nat → List Nat) (k' : Nat) : (s.modDlist b f).queue k' = s.queue k' := rfl
@[simp] theorem State.modDlist_porter (b : Nat) (f : List Nat → List Nat) (k' p' : Nat) : (s.modDlist b f).porter k' p' = s.porter k' p' := rfl
@[simp] theorem State.modDlist_chan (b : Nat) (f : List Nat → List Nat) (c' : Nat) : (s.modDlist b f).chan c' = s.chan c' := rfl
@[simp] theorem State.modDlist_chCfg (b : Nat) (f : List Nat → List Nat) (c' : Nat) : (s.modDlist b f).chCfg c' = s.chCfg c' := rfl
@[simp] theorem State.modDlist_region (b : Nat) (f : List Nat → List Nat) (n' : Nat) : (s.modDlist b f).region n' = s.region n' := rfl
@[simp] theorem State.modDlist_crfClass (b : Nat) (f : List Nat → List Nat) (c' : Nat) : (s.modDlist b f).crfClass c' = s.crfClass c' := rfl
@[simp] theorem State.modDlist_loopb (b : Nat) (f : List Nat → List Nat) (n' : Nat) : (s.modDlist b f).loopb n' = s.loopb n' := rfl
@[simp] theorem State.modDlist_dloop (b : Nat) (f : List Nat → List Nat) (k' : Nat) : (s.modDlist b f).dloop k' = s.dloop k' := rfl
@[simp] theorem State.modDlist_gbRange (b : Nat) (f : List Nat → List Nat) (k' : Nat) : (s.modDlist b f).gbRange k' = s.gbRange k' := rfl
@[simp] theorem State.modDlist_curve (b : Nat) (f : List Nat → List Nat) (k' st' : Nat) : (s.modDlist b f).curve k' st' = s.curve k' st' := rfl
@[simp] theorem State.modDlist_keyWindow (b : Nat) (f : List Nat → List Nat) (w' : Nat) : (s.modDlist b f).keyWindow w' = s.keyWindow w' := rfl
@[simp] theorem State.modDlist_levels (b : Nat) (f : List Nat → List Nat) (a' : Nat) : (s.modDlist b f).levels a' = s.levels a' := rfl
@[simp] theorem State.modDlist_ranks (b : Nat) (f : List Nat → List Nat) (a' : Nat) : (s.modDlist b f).ranks a' = s.ranks a' := rfl
@[simp] theorem State.modDlist_storeWord (b : Nat) (f : List Nat → List Nat) (i' : Nat) : (s.modDlist b f).storeWord i' = s.storeWord i' := rfl
@[simp] theorem State.modDlist_run (b : Nat) (f : List Nat → List Nat) (r' : RunRef) : (s.modDlist b f).run r' = s.run r' := rfl

/-! ### setCtx -/

@[simp] theorem State.setCtx_hp (c : Nat) (v : Ctx) : (s.setCtx c v).hp = s.hp := rfl
@[simp] theorem State.setCtx_ep (c : Nat) (v : Ctx) : (s.setCtx c v).ep = s.ep := rfl
@[simp] theorem State.setCtx_tg (c : Nat) (v : Ctx) : (s.setCtx c v).tg = s.tg := rfl
@[simp] theorem State.setCtx_lt (c : Nat) (v : Ctx) : (s.setCtx c v).lt = s.lt := rfl
@[simp] theorem State.setCtx_wf (c : Nat) (v : Ctx) : (s.setCtx c v).wf = s.wf := rfl
@[simp] theorem State.setCtx_mi (c : Nat) (v : Ctx) : (s.setCtx c v).mi = s.mi := rfl
@[simp] theorem State.setCtx_pa (c : Nat) (v : Ctx) : (s.setCtx c v).pa = s.pa := rfl
@[simp] theorem State.setCtx_st (c : Nat) (v : Ctx) : (s.setCtx c v).st = s.st := rfl
@[simp] theorem State.setCtx_ab (c : Nat) (v : Ctx) : (s.setCtx c v).ab = s.ab := rfl
@[simp] theorem State.setCtx_rn (c : Nat) (v : Ctx) : (s.setCtx c v).rn = s.rn := rfl
@[simp] theorem State.setCtx_cf (c : Nat) (v : Ctx) : (s.setCtx c v).cf = s.cf := rfl
@[simp] theorem State.setCtx_fm (c : Nat) (v : Ctx) : (s.setCtx c v).fm = s.fm := rfl
@[simp] theorem State.setCtx_cu (c : Nat) (v : Ctx) : (s.setCtx c v).cu = s.cu := rfl
@[simp] theorem State.setCtx_er (c : Nat) (v : Ctx) : (s.setCtx c v).er = s.er := rfl
@[simp] theorem State.setCtx_np (c : Nat) (v : Ctx) : (s.setCtx c v).np = s.np := rfl
@[simp] theorem State.setCtx_ts (c : Nat) (v : Ctx) : (s.setCtx c v).ts = s.ts := rfl
@[simp] theorem State.setCtx_gb (c : Nat) (v : Ctx) : (s.setCtx c v).gb = s.gb := rfl
@[simp] theorem State.setCtx_gl (c : Nat) (v : Ctx) : (s.setCtx c v).gl = s.gl := rfl
@[simp] theorem State.setCtx_free (c : Nat) (v : Ctx) : (s.setCtx c v).free = s.free := rfl
@[simp] theorem State.setCtx_blocked (c : Nat) (v : Ctx) : (s.setCtx c v).blocked = s.blocked := rfl
@[simp] theorem State.setCtx_pending (c : Nat) (v : Ctx) : (s.setCtx c v).pending = s.pending := rfl
@[simp] theorem State.setCtx_lg_held (c : Nat) (v : Ctx) : (s.setCtx c v).lg.held = s.lg.held := rfl
@[simp] theorem State.setCtx_lg_locks (c : Nat) (v : Ctx) : (s.setCtx c v).lg.locks = s.lg.locks := rfl
@[simp] theorem State.setCtx_lg_waits (c : Nat) (v : Ctx) : (s.setCtx c v).lg.waits = s.lg.waits := rfl
@[simp] theorem State.setCtx_lg_expQ (c : Nat) (v : Ctx) : (s.setCtx c v).lg.expQ = s.lg.expQ := rfl
@[simp] theorem State.setCtx_lg_keyQ (c : Nat) (v : Ctx) : (s.setCtx c v).lg.keyQ = s.lg.keyQ := rfl
@[simp] theorem State.setCtx_lg_heldExp (c : Nat) (v : Ctx) : (s.setCtx c v).lg.heldExp = s.lg.heldExp := rfl
@[simp] theorem State.setCtx_lg_heldWin (c : Nat) (v : Ctx) : (s.setCtx c v).lg.heldWin = s.lg.heldWin := rfl
@[simp] theorem State.setCtx_lg_keywin (c : Nat) (v : Ctx) : (s.setCtx c v).lg.keywin = s.lg.keywin := rfl
@[simp] theorem State.setCtx_lg_curves (c : Nat) (v : Ctx) : (s.setCtx c v).lg.curves = s.lg.curves := rfl
@[simp] theorem State.setCtx_lg_keyIgnored (c : Nat) (v : Ctx) : (s.setCtx c v).lg.keyIgnored = s.lg.keyIgnored := rfl
@[simp] theorem State.setCtx_lg_keyDup (c : Nat) (v : Ctx) : (s.setCtx c v).lg.keyDup = s.lg.keyDup := rfl
@[simp] theorem State.setCtx_lg_keySame (c : Nat) (v : Ctx) : (s.setCtx c v).lg.keySame = s.lg.keySame := rfl
@[simp] theorem State.setCtx_lg_expStale (c : Nat) (v : Ctx) : (s.setCtx c v).lg.expStale = s.lg.expStale := rfl
@[simp] theorem State.setCtx_lg_reject (c : Nat) (v : Ctx) : (s.setCtx c v).lg.reject = s.lg.reject := rfl
@[simp] theorem State.setCtx_entry (c : Nat) (v : Ctx) (e' : Nat) : (s.setCtx c v).entry e' = s.entry e' := rfl
@[simp] theorem State.setCtx_side (c : Nat) (v : Ctx) (e' : Nat) : (s.setCtx c v).side e' = s.side e' := rfl
@[simp] theorem State.setCtx_dlist (c : Nat) (v : Ctx) (b' : Nat) : (s.setCtx c v).dlist b' = s.dlist b' := rfl
@[simp] theorem State.setCtx_ctxLock (c : Nat) (v : Ctx) (c' : Nat) : (s.setCtx c v).ctxLock c' = s.ctxLock c' := rfl
@[simp] theorem State.setCtx_ctxWait (c : Nat) (v : Ctx) (c' : Nat) : (s.setCtx c v).ctxWait c' = s.ctxWait c' := rfl
@[simp] theorem State.setCtx_target (c : Nat) (v : Ctx) (t' : Nat) : (s.setCtx c v).target t' = s.target t' := rfl
@[simp] theorem State.setCtx_group (c : Nat) (v : Ctx) (g' : Nat) : (s.setCtx c v).group g' = s.group g' := rfl
@[simp] theorem State.setCtx_visitor (c : Nat) (v : Ctx) (v' : Nat) : (s.setCtx c v).visitor v' = s.visitor v' := rfl
@[simp] theorem State.setCtx_fn (c : Nat) (v : Ctx) (f' : Nat) : (s.setCtx c v).fn f' = s.fn f' := rfl
@[simp] theorem State.setCtx_port (c : Nat) (v : Ctx) (n' : Nat) : (s.setCtx c v).port n' = s.port n' := rfl
@[simp] theorem State.setCtx_peer (c : Nat) (v : Ctx) (b' : Nat) : (s.setCtx c v).peer b' = s.peer b' := rfl
@[simp] theorem State.setCtx_queue (c : Nat) (v : Ctx) (k' : Nat) : (s.setCtx c v).queue k' = s.queue k' := rfl
@[simp] theorem State.setCtx_porter (c : Nat) (v : Ctx) (k' p' : Nat) : (s.setCtx c v).porter k' p' = s.porter k' p' := rfl
@[simp] theorem State.setCtx_chan (c : Nat) (v : Ctx) (c' : Nat) : (s.setCtx c v).chan c' = s.chan c' := rfl
@[simp] theorem State.setCtx_chCfg (c : Nat) (v : Ctx) (c' : Nat) : (s.setCtx c v).chCfg c' = s.chCfg c' := rfl
@[simp] theorem State.setCtx_region (c : Nat) (v : Ctx) (n' : Nat) : (s.setCtx c v).region n' = s.region n' := rfl
@[simp] theorem State.setCtx_crfClass (c : Nat) (v : Ctx) (c' : Nat) : (s.setCtx c v).crfClass c' = s.crfClass c' := rfl
@[simp] theorem State.setCtx_loopb (c : Nat) (v : Ctx) (n' : Nat) : (s.setCtx c v).loopb n' = s.loopb n' := rfl
@[simp] theorem State.setCtx_dloop (c : Nat) (v : Ctx) (k' : Nat) : (s.setCtx c v).dloop k' = s.dloop k' := rfl
@[simp] theorem State.setCtx_gbRange (c : Nat) (v : Ctx) (k' : Nat) : (s.setCtx c v).gbRange k' = s.gbRange k' := rfl
@[simp] theorem State.setCtx_curve (c : Nat) (v : Ctx) (k' st' : Nat) : (s.setCtx c v).curve k' st' = s.curve k' st' := rfl
@[simp] theorem State.setCtx_keyWindow (c : Nat) (v : Ctx) (w' : Nat) : (s.setCtx c v).keyWindow w' = s.keyWindow w' := rfl
@[simp] theorem State.setCtx_levels (c : Nat) (v : Ctx) (a' : Nat) : (s.setCtx c v).levels a' = s.levels a' := rfl
@[simp] theorem State.setCtx_ranks (c : Nat) (v : Ctx) (a' : Nat) : (s.setCtx c v).ranks a' = s.ranks a' := rfl
@[simp] theorem State.setCtx_storeWord (c : Nat) (v : Ctx) (i' : Nat) : (s.setCtx c v).storeWord i' = s.storeWord i' := rfl
@[simp] theorem State.setCtx_run (c : Nat) (v : Ctx) (r' : RunRef) : (s.setCtx c v).run r' = s.run r' := rfl

/-! ### setCtxLock -/

@[simp] theorem State.setCtxLock_hp (c : Nat) (l : Option RunRef) : (s.setCtxLock c l).hp = s.hp := rfl
@[simp] theorem State.setCtxLock_ep (c : Nat) (l : Option RunRef) : (s.setCtxLock c l).ep = s.ep := rfl
@[simp] theorem State.setCtxLock_tg (c : Nat) (l : Option RunRef) : (s.setCtxLock c l).tg = s.tg := rfl
@[simp] theorem State.setCtxLock_lt (c : Nat) (l : Option RunRef) : (s.setCtxLock c l).lt = s.lt := rfl
@[simp] theorem State.setCtxLock_wf (c : Nat) (l : Option RunRef) : (s.setCtxLock c l).wf = s.wf := rfl
@[simp] theorem State.setCtxLock_mi (c : Nat) (l : Option RunRef) : (s.setCtxLock c l).mi = s.mi := rfl
@[simp] theorem State.setCtxLock_pa (c : Nat) (l : Option RunRef) : (s.setCtxLock c l).pa = s.pa := rfl
@[simp] theorem State.setCtxLock_st (c : Nat) (l : Option RunRef) : (s.setCtxLock c l).st = s.st := rfl
@[simp] theorem State.setCtxLock_ab (c : Nat) (l : Option RunRef) : (s.setCtxLock c l).ab = s.ab := rfl
@[simp] theorem State.setCtxLock_rn (c : Nat) (l : Option RunRef) : (s.setCtxLock c l).rn = s.rn := rfl
@[simp] theorem State.setCtxLock_cf (c : Nat) (l : Option RunRef) : (s.setCtxLock c l).cf = s.cf := rfl
@[simp] theorem State.setCtxLock_fm (c : Nat) (l : Option RunRef) : (s.setCtxLock c l).fm = s.fm := rfl
@[simp] theorem State.setCtxLock_cu (c : Nat) (l : Option RunRef) : (s.setCtxLock c l).cu = s.cu := rfl
@[simp] theorem State.setCtxLock_er (c : Nat) (l : Option RunRef) : (s.setCtxLock c l).er = s.er := rfl
@[simp] theorem State.setCtxLock_np (c : Nat) (l : Option RunRef) : (s.setCtxLock c l).np = s.np := rfl
@[simp] theorem State.setCtxLock_ts (c : Nat) (l : Option RunRef) : (s.setCtxLock c l).ts = s.ts := rfl
@[simp] theorem State.setCtxLock_gb (c : Nat) (l : Option RunRef) : (s.setCtxLock c l).gb = s.gb := rfl
@[simp] theorem State.setCtxLock_gl (c : Nat) (l : Option RunRef) : (s.setCtxLock c l).gl = s.gl := rfl
@[simp] theorem State.setCtxLock_free (c : Nat) (l : Option RunRef) : (s.setCtxLock c l).free = s.free := rfl
@[simp] theorem State.setCtxLock_blocked (c : Nat) (l : Option RunRef) : (s.setCtxLock c l).blocked = s.blocked := rfl
@[simp] theorem State.setCtxLock_pending (c : Nat) (l : Option RunRef) : (s.setCtxLock c l).pending = s.pending := rfl
@[simp] theorem State.setCtxLock_lg_ctxs (c : Nat) (l : Option RunRef) : (s.setCtxLock c l).lg.ctxs = s.lg.ctxs := rfl
@[simp] theorem State.setCtxLock_lg_held (c : Nat) (l : Option RunRef) : (s.setCtxLock c l).lg.held = s.lg.held := rfl
@[simp] theorem State.setCtxLock_lg_waits (c : Nat) (l : Option RunRef) : (s.setCtxLock c l).lg.waits = s.lg.waits := rfl
@[simp] theorem State.setCtxLock_lg_expQ (c : Nat) (l : Option RunRef) : (s.setCtxLock c l).lg.expQ = s.lg.expQ := rfl
@[simp] theorem State.setCtxLock_lg_keyQ (c : Nat) (l : Option RunRef) : (s.setCtxLock c l).lg.keyQ = s.lg.keyQ := rfl
@[simp] theorem State.setCtxLock_lg_heldExp (c : Nat) (l : Option RunRef) : (s.setCtxLock c l).lg.heldExp = s.lg.heldExp := rfl
@[simp] theorem State.setCtxLock_lg_heldWin (c : Nat) (l : Option RunRef) : (s.setCtxLock c l).lg.heldWin = s.lg.heldWin := rfl
@[simp] theorem State.setCtxLock_lg_keywin (c : Nat) (l : Option RunRef) : (s.setCtxLock c l).lg.keywin = s.lg.keywin := rfl
@[simp] theorem State.setCtxLock_lg_curves (c : Nat) (l : Option RunRef) : (s.setCtxLock c l).lg.curves = s.lg.curves := rfl
@[simp] theorem State.setCtxLock_lg_keyIgnored (c : Nat) (l : Option RunRef) : (s.setCtxLock c l).lg.keyIgnored = s.lg.keyIgnored := rfl
@[simp] theorem State.setCtxLock_lg_keyDup (c : Nat) (l : Option RunRef) : (s.setCtxLock c l).lg.keyDup = s.lg.keyDup := rfl
@[simp] theorem State.setCtxLock_lg_keySame (c : Nat) (l : Option RunRef) : (s.setCtxLock c l).lg.keySame = s.lg.keySame := rfl
@[simp] theorem State.setCtxLock_lg_expStale (c : Nat) (l : Option RunRef) : (s.setCtxLock c l).lg.expStale = s.lg.expStale := rfl
@[simp] theorem State.setCtxLock_lg_reject (c : Nat) (l : Option RunRef) : (s.setCtxLock c l).lg.reject = s.lg.reject := rfl
@[simp] theorem State.setCtxLock_entry (c : Nat) (l : Option RunRef) (e' : Nat) : (s.setCtxLock c l).entry e' = s.entry e' := rfl
@[simp] theorem State.setCtxLock_side (c : Nat) (l : Option RunRef) (e' : Nat) : (s.setCtxLock c l).side e' = s.side e' := rfl
@[simp] theorem State.setCtxLock_dlist (c : Nat) (l : Option RunRef) (b' : Nat) : (s.setCtxLock c l).dlist b' = s.dlist b' := rfl
@[simp] theorem State.setCtxLock_ctx (c : Nat) (l : Option RunRef) (c' : Nat) : (s.setCtxLock c l).ctx c' = s.ctx c' := rfl
@[simp] theorem State.setCtxLock_ctxWait (c : Nat) (l : Option RunRef) (c' : Nat) : (s.setCtxLock c l).ctxWait c' = s.ctxWait c' := rfl
@[simp] theorem State.setCtxLock_target (c : Nat) (l : Option RunRef) (t' : Nat) : (s.setCtxLock c l).target t' = s.target t' := rfl
@[simp] theorem State.setCtxLock_group (c : Nat) (l : Option RunRef) (g' : Nat) : (s.setCtxLock c l).group g' = s.group g' := rfl
@[simp] theorem State.setCtxLock_visitor (c : Nat) (l : Option RunRef) (v' : Nat) : (s.setCtxLock c l).visitor v' = s.visitor v' := rfl
@[simp] theorem State.setCtxLock_fn (c : Nat) (l : Option RunRef) (f' : Nat) : (s.setCtxLock c l).fn f' = s.fn f' := rfl
@[simp] theorem State.setCtxLock_port (c : Nat) (l : Option RunRef) (n' : Nat) : (s.setCtxLock c l).port n' = s.port n' := rfl
@[simp] theorem State.setCtxLock_peer (c : Nat) (l : Option RunRef) (b' : Nat) : (s.setCtxLock c l).peer b' = s.peer b' := rfl
@[simp] theorem State.setCtxLock_queue (c : Nat) (l : Option RunRef) (k' : Nat) : (s.setCtxLock c l).queue k' = s.queue k' := rfl
@[simp] theorem State.setCtxLock_porter (c : Nat) (l : Option RunRef) (k' p' : Nat) : (s.setCtxLock c l).porter k' p' = s.porter k' p' := rfl
@[simp] theorem State.setCtxLock_chan (c : Nat) (l : Option RunRef) (c' : Nat) : (s.setCtxLock c l).chan c' = s.chan c' := rfl
@[simp] theorem State.setCtxLock_chCfg (c : Nat) (l : Option RunRef) (c' : Nat) : (s.setCtxLock c l).chCfg c' = s.chCfg c' := rfl
@[simp] theorem State.setCtxLock_region (c : Nat) (l : Option RunRef) (n' : Nat) : (s.setCtxLock c l).region n' = s.region n' := rfl
@[simp] theorem State.setCtxLock_crfClass (c : Nat) (l : Option RunRef) (c' : Nat) : (s.setCtxLock c l).crfClass c' = s.crfClass c' := rfl
@[simp] theorem State.setCtxLock_loopb (c : Nat) (l : Option RunRef) (n' : Nat) : (s.setCtxLock c l).loopb n' = s.loopb n' := rfl
@[simp] theorem State.setCtxLock_dloop (c : Nat) (l : Option RunRef) (k' : Nat) : (s.setCtxLock c l).dloop k' = s.dloop k' := rfl
@[simp] theorem State.setCtxLock_gbRange (c : Nat) (l : Option RunRef) (k' : Nat) : (s.setCtxLock c l).gbRange k' = s.gbRange k' := rfl
@[simp] theorem State.setCtxLock_curve (c : Nat) (l : Option RunRef) (k' st' : Nat) : (s.setCtxLock c l).curve k' st' = s.curve k' st' := rfl
@[simp] theorem State.setCtxLock_keyWindow (c : Nat) (l : Option RunRef) (w' : Nat) : (s.setCtxLock c l).keyWindow w' = s.keyWindow w' := rfl
@[simp] theorem State.setCtxLock_levels (c : Nat) (l : Option RunRef) (a' : Nat) : (s.setCtxLock c l).levels a' = s.levels a' := rfl
@[simp] theorem State.setCtxLock_ranks (c : Nat) (l : Option RunRef) (a' : Nat) : (s.setCtxLock c l).ranks a' = s.ranks a' := rfl
@[simp] theorem State.setCtxLock_storeWord (c : Nat) (l : Option RunRef) (i' : Nat) : (s.setCtxLock c l).storeWord i' = s.storeWord i' := rfl
@[simp] theorem State.setCtxLock_run (c : Nat) (l : Option RunRef) (r' : RunRef) : (s.setCtxLock c l).run r' = s.run r' := rfl

/-! ### modTarget -/

@[simp] theorem State.modTarget_hp (t : Nat) (f : Target → Target) : (s.modTarget t f).hp = s.hp := rfl
@[simp] theorem State.modTarget_ep (t : Nat) (f : Target → Target) : (s.modTarget t f).ep = s.ep := rfl
@[simp] theorem State.modTarget_tg (t : Nat) (f : Target → Target) : (s.modTarget t f).tg = s.tg := rfl
@[simp] theorem State.modTarget_lt (t : Nat) (f : Target → Target) : (s.modTarget t f).lt = s.lt := rfl
@[simp] theorem State.modTarget_wf (t : Nat) (f : Target → Target) : (s.modTarget t f).wf = s.wf := rfl
@[simp] theorem State.modTarget_mi (t : Nat) (f : Target → Target) : (s.modTarget t f).mi = s.mi := rfl
@[simp] theorem State.modTarget_lg (t : Nat) (f : Target → Target) : (s.modTarget t f).lg = s.lg := rfl
@[simp] theorem State.modTarget_pa (t : Nat) (f : Target → Target) : (s.modTarget t f).pa = s.pa := rfl
@[simp] theorem State.modTarget_st (t : Nat) (f : Target → Target) : (s.modTarget t f).st = s.st := rfl
@[simp] theorem State.modTarget_ab (t : Nat) (f : Target → Target) : (s.modTarget t f).ab = s.ab := rfl
@[simp] theorem State.modTarget_cf (t : Nat) (f : Target → Target) : (s.modTarget t f).cf = s.cf := rfl
@[simp] theorem State.modTarget_fm (t : Nat) (f : Target → Target) : (s.modTarget t f).fm = s.fm := rfl
@[simp] theorem State.modTarget_cu (t : Nat) (f : Target → Target) : (s.modTarget t f).cu = s.cu := rfl
@[simp] theorem State.modTarget_er (t : Nat) (f : Target → Target) : (s.modTarget t f).er = s.er := rfl
@[simp] theorem State.modTarget_np (t : Nat) (f : Target → Target) : (s.modTarget t f).np = s.np := rfl
@[simp] theorem State.modTarget_ts (t : Nat) (f : Target → Target) : (s.modTarget t f).ts = s.ts := rfl
@[simp] theorem State.modTarget_gb (t : Nat) (f : Target → Target) : (s.modTarget t f).gb = s.gb := rfl
@[simp] theorem State.modTarget_gl (t : Nat) (f : Target → Target) : (s.modTarget t f).gl = s.gl := rfl
@[simp] theorem State.modTarget_free (t : Nat) (f : Target → Target) : (s.modTarget t f).free = s.free := rfl
@[simp] theorem State.modTarget_blocked (t : Nat) (f : Target → Target) : (s.modTarget t f).blocked = s.blocked := rfl
@[simp] theorem State.modTarget_pending (t : Nat) (f : Target → Target) : (s.modTarget t f).pending = s.pending := rfl
@[simp] theorem State.modTarget_rn_unsettled (t : Nat) (f : Target → Target) : (s.modTarget t f).rn.unsettled = s.rn.unsettled := rfl
@[simp] theorem State.modTarget_rn_groups (t : Nat) (f : Target → Target) : (s.modTarget t f).rn.groups = s.rn.groups := rfl
@[simp] theorem State.modTarget_rn_orders (t : Nat) (f : Target → Target) : (s.modTarget t f).rn.orders = s.rn.orders := rfl
@[simp] theorem State.modTarget_rn_nextOrd (t : Nat) (f : Target → Target) : (s.modTarget t f).rn.nextOrd = s.rn.nextOrd := rfl
@[simp] theorem State.modTarget_rn_offerQ (t : Nat) (f : Target → Target) : (s.modTarget t f).rn.offerQ = s.rn.offerQ := rfl
@[simp] theorem State.modTarget_rn_svcQ (t : Nat) (f : Target → Target) : (s.modTarget t f).rn.svcQ = s.rn.svcQ := rfl
@[simp] theorem State.modTarget_rn_heldOff (t : Nat) (f : Target → Target) : (s.modTarget t f).rn.heldOff = s.rn.heldOff := rfl
@[simp] theorem State.modTarget_rn_heldSvc (t : Nat) (f : Target → Target) : (s.modTarget t f).rn.heldSvc = s.rn.heldSvc := rfl
@[simp] theorem State.modTarget_rn_offerCnt (t : Nat) (f : Target → Target) : (s.modTarget t f).rn.offerCnt = s.rn.offerCnt := rfl
@[simp] theorem State.modTarget_rn_svcCnt (t : Nat) (f : Target → Target) : (s.modTarget t f).rn.svcCnt = s.rn.svcCnt := rfl
@[simp] theorem State.modTarget_rn_displace (t : Nat) (f : Target → Target) : (s.modTarget t f).rn.displace = s.rn.displace := rfl
@[simp] theorem State.modTarget_rn_strayCnt (t : Nat) (f : Target → Target) : (s.modTarget t f).rn.strayCnt = s.rn.strayCnt := rfl
@[simp] theorem State.modTarget_rn_heldPl (t : Nat) (f : Target → Target) : (s.modTarget t f).rn.heldPl = s.rn.heldPl := rfl
@[simp] theorem State.modTarget_rn_visitors (t : Nat) (f : Target → Target) : (s.modTarget t f).rn.visitors = s.rn.visitors := rfl
@[simp] theorem State.modTarget_entry (t : Nat) (f : Target → Target) (e' : Nat) : (s.modTarget t f).entry e' = s.entry e' := rfl
@[simp] theorem State.modTarget_side (t : Nat) (f : Target → Target) (e' : Nat) : (s.modTarget t f).side e' = s.side e' := rfl
@[simp] theorem State.modTarget_dlist (t : Nat) (f : Target → Target) (b' : Nat) : (s.modTarget t f).dlist b' = s.dlist b' := rfl
@[simp] theorem State.modTarget_ctx (t : Nat) (f : Target → Target) (c' : Nat) : (s.modTarget t f).ctx c' = s.ctx c' := rfl
@[simp] theorem State.modTarget_ctxLock (t : Nat) (f : Target → Target) (c' : Nat) : (s.modTarget t f).ctxLock c' = s.ctxLock c' := rfl
@[simp] theorem State.modTarget_ctxWait (t : Nat) (f : Target → Target) (c' : Nat) : (s.modTarget t f).ctxWait c' = s.ctxWait c' := rfl
@[simp] theorem State.modTarget_group (t : Nat) (f : Target → Target) (g' : Nat) : (s.modTarget t f).group g' = s.group g' := rfl
@[simp] theorem State.modTarget_visitor (t : Nat) (f : Target → Target) (v' : Nat) : (s.modTarget t f).visitor v' = s.visitor v' := rfl
@[simp] theorem State.modTarget_fn (t : Nat) (f : Target → Target) (f' : Nat) : (s.modTarget t f).fn f' = s.fn f' := rfl
@[simp] theorem State.modTarget_port (t : Nat) (f : Target → Target) (n' : Nat) : (s.modTarget t f).port n' = s.port n' := rfl
@[simp] theorem State.modTarget_peer (t : Nat) (f : Target → Target) (b' : Nat) : (s.modTarget t f).peer b' = s.peer b' := rfl
@[simp] theorem State.modTarget_queue (t : Nat) (f : Target → Target) (k' : Nat) : (s.modTarget t f).queue k' = s.queue k' := rfl
@[simp] theorem State.modTarget_porter (t : Nat) (f : Target → Target) (k' p' : Nat) : (s.modTarget t f).porter k' p' = s.porter k' p' := rfl
@[simp] theorem State.modTarget_chan (t : Nat) (f : Target → Target) (c' : Nat) : (s.modTarget t f).chan c' = s.chan c' := rfl
@[simp] theorem State.modTarget_chCfg (t : Nat) (f : Target → Target) (c' : Nat) : (s.modTarget t f).chCfg c' = s.chCfg c' := rfl
@[simp] theorem State.modTarget_region (t : Nat) (f : Target → Target) (n' : Nat) : (s.modTarget t f).region n' = s.region n' := rfl
@[simp] theorem State.modTarget_crfClass (t : Nat) (f : Target → Target) (c' : Nat) : (s.modTarget t f).crfClass c' = s.crfClass c' := rfl
@[simp] theorem State.modTarget_loopb (t : Nat) (f : Target → Target) (n' : Nat) : (s.modTarget t f).loopb n' = s.loopb n' := rfl
@[simp] theorem State.modTarget_dloop (t : Nat) (f : Target → Target) (k' : Nat) : (s.modTarget t f).dloop k' = s.dloop k' := rfl
@[simp] theorem State.modTarget_gbRange (t : Nat) (f : Target → Target) (k' : Nat) : (s.modTarget t f).gbRange k' = s.gbRange k' := rfl
@[simp] theorem State.modTarget_curve (t : Nat) (f : Target → Target) (k' st' : Nat) : (s.modTarget t f).curve k' st' = s.curve k' st' := rfl
@[simp] theorem State.modTarget_keyWindow (t : Nat) (f : Target → Target) (w' : Nat) : (s.modTarget t f).keyWindow w' = s.keyWindow w' := rfl
@[simp] theorem State.modTarget_levels (t : Nat) (f : Target → Target) (a' : Nat) : (s.modTarget t f).levels a' = s.levels a' := rfl
@[simp] theorem State.modTarget_ranks (t : Nat) (f : Target → Target) (a' : Nat) : (s.modTarget t f).ranks a' = s.ranks a' := rfl
@[simp] theorem State.modTarget_storeWord (t : Nat) (f : Target → Target) (i' : Nat) : (s.modTarget t f).storeWord i' = s.storeWord i' := rfl
@[simp] theorem State.modTarget_run (t : Nat) (f : Target → Target) (r' : RunRef) : (s.modTarget t f).run r' = s.run r' := rfl

/-! ### modGroup -/

@[simp] theorem State.modGroup_hp (g : Nat) (f : Group → Group) : (s.modGroup g f).hp = s.hp := rfl
@[simp] theorem State.modGroup_ep (g : Nat) (f : Group → Group) : (s.modGroup g f).ep = s.ep := rfl
@[simp] theorem State.modGroup_tg (g : Nat) (f : Group → Group) : (s.modGroup g f).tg = s.tg := rfl
@[simp] theorem State.modGroup_lt (g : Nat) (f : Group → Group) : (s.modGroup g f).lt = s.lt := rfl
@[simp] theorem State.modGroup_wf (g : Nat) (f : Group → Group) : (s.modGroup g f).wf = s.wf := rfl
@[simp] theorem State.modGroup_mi (g : Nat) (f : Group → Group) : (s.modGroup g f).mi = s.mi := rfl
@[simp] theorem State.modGroup_lg (g : Nat) (f : Group → Group) : (s.modGroup g f).lg = s.lg := rfl
@[simp] theorem State.modGroup_pa (g : Nat) (f : Group → Group) : (s.modGroup g f).pa = s.pa := rfl
@[simp] theorem State.modGroup_st (g : Nat) (f : Group → Group) : (s.modGroup g f).st = s.st := rfl
@[simp] theorem State.modGroup_ab (g : Nat) (f : Group → Group) : (s.modGroup g f).ab = s.ab := rfl
@[simp] theorem State.modGroup_cf (g : Nat) (f : Group → Group) : (s.modGroup g f).cf = s.cf := rfl
@[simp] theorem State.modGroup_fm (g : Nat) (f : Group → Group) : (s.modGroup g f).fm = s.fm := rfl
@[simp] theorem State.modGroup_cu (g : Nat) (f : Group → Group) : (s.modGroup g f).cu = s.cu := rfl
@[simp] theorem State.modGroup_er (g : Nat) (f : Group → Group) : (s.modGroup g f).er = s.er := rfl
@[simp] theorem State.modGroup_np (g : Nat) (f : Group → Group) : (s.modGroup g f).np = s.np := rfl
@[simp] theorem State.modGroup_ts (g : Nat) (f : Group → Group) : (s.modGroup g f).ts = s.ts := rfl
@[simp] theorem State.modGroup_gb (g : Nat) (f : Group → Group) : (s.modGroup g f).gb = s.gb := rfl
@[simp] theorem State.modGroup_gl (g : Nat) (f : Group → Group) : (s.modGroup g f).gl = s.gl := rfl
@[simp] theorem State.modGroup_free (g : Nat) (f : Group → Group) : (s.modGroup g f).free = s.free := rfl
@[simp] theorem State.modGroup_blocked (g : Nat) (f : Group → Group) : (s.modGroup g f).blocked = s.blocked := rfl
@[simp] theorem State.modGroup_pending (g : Nat) (f : Group → Group) : (s.modGroup g f).pending = s.pending := rfl
@[simp] theorem State.modGroup_rn_targets (g : Nat) (f : Group → Group) : (s.modGroup g f).rn.targets = s.rn.targets := rfl
@[simp] theorem State.modGroup_rn_unsettled (g : Nat) (f : Group → Group) : (s.modGroup g f).rn.unsettled = s.rn.unsettled := rfl
@[simp] theorem State.modGroup_rn_orders (g : Nat) (f : Group → Group) : (s.modGroup g f).rn.orders = s.rn.orders := rfl
@[simp] theorem State.modGroup_rn_nextOrd (g : Nat) (f : Group → Group) : (s.modGroup g f).rn.nextOrd = s.rn.nextOrd := rfl
@[simp] theorem State.modGroup_rn_offerQ (g : Nat) (f : Group → Group) : (s.modGroup g f).rn.offerQ = s.rn.offerQ := rfl
@[simp] theorem State.modGroup_rn_svcQ (g : Nat) (f : Group → Group) : (s.modGroup g f).rn.svcQ = s.rn.svcQ := rfl
@[simp] theorem State.modGroup_rn_heldOff (g : Nat) (f : Group → Group) : (s.modGroup g f).rn.heldOff = s.rn.heldOff := rfl
@[simp] theorem State.modGroup_rn_heldSvc (g : Nat) (f : Group → Group) : (s.modGroup g f).rn.heldSvc = s.rn.heldSvc := rfl
@[simp] theorem State.modGroup_rn_offerCnt (g : Nat) (f : Group → Group) : (s.modGroup g f).rn.offerCnt = s.rn.offerCnt := rfl
@[simp] theorem State.modGroup_rn_svcCnt (g : Nat) (f : Group → Group) : (s.modGroup g f).rn.svcCnt = s.rn.svcCnt := rfl
@[simp] theorem State.modGroup_rn_displace (g : Nat) (f : Group → Group) : (s.modGroup g f).rn.displace = s.rn.displace := rfl
@[simp] theorem State.modGroup_rn_strayCnt (g : Nat) (f : Group → Group) : (s.modGroup g f).rn.strayCnt = s.rn.strayCnt := rfl
@[simp] theorem State.modGroup_rn_heldPl (g : Nat) (f : Group → Group) : (s.modGroup g f).rn.heldPl = s.rn.heldPl := rfl
@[simp] theorem State.modGroup_rn_visitors (g : Nat) (f : Group → Group) : (s.modGroup g f).rn.visitors = s.rn.visitors := rfl
@[simp] theorem State.modGroup_entry (g : Nat) (f : Group → Group) (e' : Nat) : (s.modGroup g f).entry e' = s.entry e' := rfl
@[simp] theorem State.modGroup_side (g : Nat) (f : Group → Group) (e' : Nat) : (s.modGroup g f).side e' = s.side e' := rfl
@[simp] theorem State.modGroup_dlist (g : Nat) (f : Group → Group) (b' : Nat) : (s.modGroup g f).dlist b' = s.dlist b' := rfl
@[simp] theorem State.modGroup_ctx (g : Nat) (f : Group → Group) (c' : Nat) : (s.modGroup g f).ctx c' = s.ctx c' := rfl
@[simp] theorem State.modGroup_ctxLock (g : Nat) (f : Group → Group) (c' : Nat) : (s.modGroup g f).ctxLock c' = s.ctxLock c' := rfl
@[simp] theorem State.modGroup_ctxWait (g : Nat) (f : Group → Group) (c' : Nat) : (s.modGroup g f).ctxWait c' = s.ctxWait c' := rfl
@[simp] theorem State.modGroup_target (g : Nat) (f : Group → Group) (t' : Nat) : (s.modGroup g f).target t' = s.target t' := rfl
@[simp] theorem State.modGroup_visitor (g : Nat) (f : Group → Group) (v' : Nat) : (s.modGroup g f).visitor v' = s.visitor v' := rfl
@[simp] theorem State.modGroup_fn (g : Nat) (f : Group → Group) (f' : Nat) : (s.modGroup g f).fn f' = s.fn f' := rfl
@[simp] theorem State.modGroup_port (g : Nat) (f : Group → Group) (n' : Nat) : (s.modGroup g f).port n' = s.port n' := rfl
@[simp] theorem State.modGroup_peer (g : Nat) (f : Group → Group) (b' : Nat) : (s.modGroup g f).peer b' = s.peer b' := rfl
@[simp] theorem State.modGroup_queue (g : Nat) (f : Group → Group) (k' : Nat) : (s.modGroup g f).queue k' = s.queue k' := rfl
@[simp] theorem State.modGroup_porter (g : Nat) (f : Group → Group) (k' p' : Nat) : (s.modGroup g f).porter k' p' = s.porter k' p' := rfl
@[simp] theorem State.modGroup_chan (g : Nat) (f : Group → Group) (c' : Nat) : (s.modGroup g f).chan c' = s.chan c' := rfl
@[simp] theorem State.modGroup_chCfg (g : Nat) (f : Group → Group) (c' : Nat) : (s.modGroup g f).chCfg c' = s.chCfg c' := rfl
@[simp] theorem State.modGroup_region (g : Nat) (f : Group → Group) (n' : Nat) : (s.modGroup g f).region n' = s.region n' := rfl
@[simp] theorem State.modGroup_crfClass (g : Nat) (f : Group → Group) (c' : Nat) : (s.modGroup g f).crfClass c' = s.crfClass c' := rfl
@[simp] theorem State.modGroup_loopb (g : Nat) (f : Group → Group) (n' : Nat) : (s.modGroup g f).loopb n' = s.loopb n' := rfl
@[simp] theorem State.modGroup_dloop (g : Nat) (f : Group → Group) (k' : Nat) : (s.modGroup g f).dloop k' = s.dloop k' := rfl
@[simp] theorem State.modGroup_gbRange (g : Nat) (f : Group → Group) (k' : Nat) : (s.modGroup g f).gbRange k' = s.gbRange k' := rfl
@[simp] theorem State.modGroup_curve (g : Nat) (f : Group → Group) (k' st' : Nat) : (s.modGroup g f).curve k' st' = s.curve k' st' := rfl
@[simp] theorem State.modGroup_keyWindow (g : Nat) (f : Group → Group) (w' : Nat) : (s.modGroup g f).keyWindow w' = s.keyWindow w' := rfl
@[simp] theorem State.modGroup_levels (g : Nat) (f : Group → Group) (a' : Nat) : (s.modGroup g f).levels a' = s.levels a' := rfl
@[simp] theorem State.modGroup_ranks (g : Nat) (f : Group → Group) (a' : Nat) : (s.modGroup g f).ranks a' = s.ranks a' := rfl
@[simp] theorem State.modGroup_storeWord (g : Nat) (f : Group → Group) (i' : Nat) : (s.modGroup g f).storeWord i' = s.storeWord i' := rfl
@[simp] theorem State.modGroup_run (g : Nat) (f : Group → Group) (r' : RunRef) : (s.modGroup g f).run r' = s.run r' := rfl

/-! ### setVisitor -/

@[simp] theorem State.setVisitor_hp (v : Nat) (x : Option Visitor) : (s.setVisitor v x).hp = s.hp := rfl
@[simp] theorem State.setVisitor_ep (v : Nat) (x : Option Visitor) : (s.setVisitor v x).ep = s.ep := rfl
@[simp] theorem State.setVisitor_tg (v : Nat) (x : Option Visitor) : (s.setVisitor v x).tg = s.tg := rfl
@[simp] theorem State.setVisitor_lt (v : Nat) (x : Option Visitor) : (s.setVisitor v x).lt = s.lt := rfl
@[simp] theorem State.setVisitor_wf (v : Nat) (x : Option Visitor) : (s.setVisitor v x).wf = s.wf := rfl
@[simp] theorem State.setVisitor_mi (v : Nat) (x : Option Visitor) : (s.setVisitor v x).mi = s.mi := rfl
@[simp] theorem State.setVisitor_lg (v : Nat) (x : Option Visitor) : (s.setVisitor v x).lg = s.lg := rfl
@[simp] theorem State.setVisitor_pa (v : Nat) (x : Option Visitor) : (s.setVisitor v x).pa = s.pa := rfl
@[simp] theorem State.setVisitor_st (v : Nat) (x : Option Visitor) : (s.setVisitor v x).st = s.st := rfl
@[simp] theorem State.setVisitor_ab (v : Nat) (x : Option Visitor) : (s.setVisitor v x).ab = s.ab := rfl
@[simp] theorem State.setVisitor_cf (v : Nat) (x : Option Visitor) : (s.setVisitor v x).cf = s.cf := rfl
@[simp] theorem State.setVisitor_fm (v : Nat) (x : Option Visitor) : (s.setVisitor v x).fm = s.fm := rfl
@[simp] theorem State.setVisitor_cu (v : Nat) (x : Option Visitor) : (s.setVisitor v x).cu = s.cu := rfl
@[simp] theorem State.setVisitor_er (v : Nat) (x : Option Visitor) : (s.setVisitor v x).er = s.er := rfl
@[simp] theorem State.setVisitor_np (v : Nat) (x : Option Visitor) : (s.setVisitor v x).np = s.np := rfl
@[simp] theorem State.setVisitor_ts (v : Nat) (x : Option Visitor) : (s.setVisitor v x).ts = s.ts := rfl
@[simp] theorem State.setVisitor_gb (v : Nat) (x : Option Visitor) : (s.setVisitor v x).gb = s.gb := rfl
@[simp] theorem State.setVisitor_gl (v : Nat) (x : Option Visitor) : (s.setVisitor v x).gl = s.gl := rfl
@[simp] theorem State.setVisitor_free (v : Nat) (x : Option Visitor) : (s.setVisitor v x).free = s.free := rfl
@[simp] theorem State.setVisitor_blocked (v : Nat) (x : Option Visitor) : (s.setVisitor v x).blocked = s.blocked := rfl
@[simp] theorem State.setVisitor_pending (v : Nat) (x : Option Visitor) : (s.setVisitor v x).pending = s.pending := rfl
@[simp] theorem State.setVisitor_rn_targets (v : Nat) (x : Option Visitor) : (s.setVisitor v x).rn.targets = s.rn.targets := rfl
@[simp] theorem State.setVisitor_rn_unsettled (v : Nat) (x : Option Visitor) : (s.setVisitor v x).rn.unsettled = s.rn.unsettled := rfl
@[simp] theorem State.setVisitor_rn_groups (v : Nat) (x : Option Visitor) : (s.setVisitor v x).rn.groups = s.rn.groups := rfl
@[simp] theorem State.setVisitor_rn_orders (v : Nat) (x : Option Visitor) : (s.setVisitor v x).rn.orders = s.rn.orders := rfl
@[simp] theorem State.setVisitor_rn_nextOrd (v : Nat) (x : Option Visitor) : (s.setVisitor v x).rn.nextOrd = s.rn.nextOrd := rfl
@[simp] theorem State.setVisitor_rn_offerQ (v : Nat) (x : Option Visitor) : (s.setVisitor v x).rn.offerQ = s.rn.offerQ := rfl
@[simp] theorem State.setVisitor_rn_svcQ (v : Nat) (x : Option Visitor) : (s.setVisitor v x).rn.svcQ = s.rn.svcQ := rfl
@[simp] theorem State.setVisitor_rn_heldOff (v : Nat) (x : Option Visitor) : (s.setVisitor v x).rn.heldOff = s.rn.heldOff := rfl
@[simp] theorem State.setVisitor_rn_heldSvc (v : Nat) (x : Option Visitor) : (s.setVisitor v x).rn.heldSvc = s.rn.heldSvc := rfl
@[simp] theorem State.setVisitor_rn_offerCnt (v : Nat) (x : Option Visitor) : (s.setVisitor v x).rn.offerCnt = s.rn.offerCnt := rfl
@[simp] theorem State.setVisitor_rn_svcCnt (v : Nat) (x : Option Visitor) : (s.setVisitor v x).rn.svcCnt = s.rn.svcCnt := rfl
@[simp] theorem State.setVisitor_rn_displace (v : Nat) (x : Option Visitor) : (s.setVisitor v x).rn.displace = s.rn.displace := rfl
@[simp] theorem State.setVisitor_rn_strayCnt (v : Nat) (x : Option Visitor) : (s.setVisitor v x).rn.strayCnt = s.rn.strayCnt := rfl
@[simp] theorem State.setVisitor_rn_heldPl (v : Nat) (x : Option Visitor) : (s.setVisitor v x).rn.heldPl = s.rn.heldPl := rfl
@[simp] theorem State.setVisitor_entry (v : Nat) (x : Option Visitor) (e' : Nat) : (s.setVisitor v x).entry e' = s.entry e' := rfl
@[simp] theorem State.setVisitor_side (v : Nat) (x : Option Visitor) (e' : Nat) : (s.setVisitor v x).side e' = s.side e' := rfl
@[simp] theorem State.setVisitor_dlist (v : Nat) (x : Option Visitor) (b' : Nat) : (s.setVisitor v x).dlist b' = s.dlist b' := rfl
@[simp] theorem State.setVisitor_ctx (v : Nat) (x : Option Visitor) (c' : Nat) : (s.setVisitor v x).ctx c' = s.ctx c' := rfl
@[simp] theorem State.setVisitor_ctxLock (v : Nat) (x : Option Visitor) (c' : Nat) : (s.setVisitor v x).ctxLock c' = s.ctxLock c' := rfl
@[simp] theorem State.setVisitor_ctxWait (v : Nat) (x : Option Visitor) (c' : Nat) : (s.setVisitor v x).ctxWait c' = s.ctxWait c' := rfl
@[simp] theorem State.setVisitor_target (v : Nat) (x : Option Visitor) (t' : Nat) : (s.setVisitor v x).target t' = s.target t' := rfl
@[simp] theorem State.setVisitor_group (v : Nat) (x : Option Visitor) (g' : Nat) : (s.setVisitor v x).group g' = s.group g' := rfl
@[simp] theorem State.setVisitor_fn (v : Nat) (x : Option Visitor) (f' : Nat) : (s.setVisitor v x).fn f' = s.fn f' := rfl
@[simp] theorem State.setVisitor_port (v : Nat) (x : Option Visitor) (n' : Nat) : (s.setVisitor v x).port n' = s.port n' := rfl
@[simp] theorem State.setVisitor_peer (v : Nat) (x : Option Visitor) (b' : Nat) : (s.setVisitor v x).peer b' = s.peer b' := rfl
@[simp] theorem State.setVisitor_queue (v : Nat) (x : Option Visitor) (k' : Nat) : (s.setVisitor v x).queue k' = s.queue k' := rfl
@[simp] theorem State.setVisitor_porter (v : Nat) (x : Option Visitor) (k' p' : Nat) : (s.setVisitor v x).porter k' p' = s.porter k' p' := rfl
@[simp] theorem State.setVisitor_chan (v : Nat) (x : Option Visitor) (c' : Nat) : (s.setVisitor v x).chan c' = s.chan c' := rfl
@[simp] theorem State.setVisitor_chCfg (v : Nat) (x : Option Visitor) (c' : Nat) : (s.setVisitor v x).chCfg c' = s.chCfg c' := rfl
@[simp] theorem State.setVisitor_region (v : Nat) (x : Option Visitor) (n' : Nat) : (s.setVisitor v x).region n' = s.region n' := rfl
@[simp] theorem State.setVisitor_crfClass (v : Nat) (x : Option Visitor) (c' : Nat) : (s.setVisitor v x).crfClass c' = s.crfClass c' := rfl
@[simp] theorem State.setVisitor_loopb (v : Nat) (x : Option Visitor) (n' : Nat) : (s.setVisitor v x).loopb n' = s.loopb n' := rfl
@[simp] theorem State.setVisitor_dloop (v : Nat) (x : Option Visitor) (k' : Nat) : (s.setVisitor v x).dloop k' = s.dloop k' := rfl
@[simp] theorem State.setVisitor_gbRange (v : Nat) (x : Option Visitor) (k' : Nat) : (s.setVisitor v x).gbRange k' = s.gbRange k' := rfl
@[simp] theorem State.setVisitor_curve (v : Nat) (x : Option Visitor) (k' st' : Nat) : (s.setVisitor v x).curve k' st' = s.curve k' st' := rfl
@[simp] theorem State.setVisitor_keyWindow (v : Nat) (x : Option Visitor) (w' : Nat) : (s.setVisitor v x).keyWindow w' = s.keyWindow w' := rfl
@[simp] theorem State.setVisitor_levels (v : Nat) (x : Option Visitor) (a' : Nat) : (s.setVisitor v x).levels a' = s.levels a' := rfl
@[simp] theorem State.setVisitor_ranks (v : Nat) (x : Option Visitor) (a' : Nat) : (s.setVisitor v x).ranks a' = s.ranks a' := rfl
@[simp] theorem State.setVisitor_storeWord (v : Nat) (x : Option Visitor) (i' : Nat) : (s.setVisitor v x).storeWord i' = s.storeWord i' := rfl
@[simp] theorem State.setVisitor_run (v : Nat) (x : Option Visitor) (r' : RunRef) : (s.setVisitor v x).run r' = s.run r' := rfl

/-! ### modFn -/

@[simp] theorem State.modFn_hp (f : Nat) (g : Fn → Fn) : (s.modFn f g).hp = s.hp := rfl
@[simp] theorem State.modFn_ep (f : Nat) (g : Fn → Fn) : (s.modFn f g).ep = s.ep := rfl
@[simp] theorem State.modFn_tg (f : Nat) (g : Fn → Fn) : (s.modFn f g).tg = s.tg := rfl
@[simp] theorem State.modFn_lt (f : Nat) (g : Fn → Fn) : (s.modFn f g).lt = s.lt := rfl
@[simp] theorem State.modFn_wf (f : Nat) (g : Fn → Fn) : (s.modFn f g).wf = s.wf := rfl
@[simp] theorem State.modFn_mi (f : Nat) (g : Fn → Fn) : (s.modFn f g).mi = s.mi := rfl
@[simp] theorem State.modFn_lg (f : Nat) (g : Fn → Fn) : (s.modFn f g).lg = s.lg := rfl
@[simp] theorem State.modFn_pa (f : Nat) (g : Fn → Fn) : (s.modFn f g).pa = s.pa := rfl
@[simp] theorem State.modFn_st (f : Nat) (g : Fn → Fn) : (s.modFn f g).st = s.st := rfl
@[simp] theorem State.modFn_ab (f : Nat) (g : Fn → Fn) : (s.modFn f g).ab = s.ab := rfl
@[simp] theorem State.modFn_rn (f : Nat) (g : Fn → Fn) : (s.modFn f g).rn = s.rn := rfl
@[simp] theorem State.modFn_cf (f : Nat) (g : Fn → Fn) : (s.modFn f g).cf = s.cf := rfl
@[simp] theorem State.modFn_cu (f : Nat) (g : Fn → Fn) : (s.modFn f g).cu = s.cu := rfl
@[simp] theorem State.modFn_er (f : Nat) (g : Fn → Fn) : (s.modFn f g).er = s.er := rfl
@[simp] theorem State.modFn_np (f : Nat) (g : Fn → Fn) : (s.modFn f g).np = s.np := rfl
@[simp] theorem State.modFn_ts (f : Nat) (g : Fn → Fn) : (s.modFn f g).ts = s.ts := rfl
@[simp] theorem State.modFn_gb (f : Nat) (g : Fn → Fn) : (s.modFn f g).gb = s.gb := rfl
@[simp] theorem State.modFn_gl (f : Nat) (g : Fn → Fn) : (s.modFn f g).gl = s.gl := rfl
@[simp] theorem State.modFn_free (f : Nat) (g : Fn → Fn) : (s.modFn f g).free = s.free := rfl
@[simp] theorem State.modFn_blocked (f : Nat) (g : Fn → Fn) : (s.modFn f g).blocked = s.blocked := rfl
@[simp] theorem State.modFn_pending (f : Nat) (g : Fn → Fn) : (s.modFn f g).pending = s.pending := rfl
@[simp] theorem State.modFn_fm_arg0 (f : Nat) (g : Fn → Fn) : (s.modFn f g).fm.arg0 = s.fm.arg0 := rfl
@[simp] theorem State.modFn_fm_arg1 (f : Nat) (g : Fn → Fn) : (s.modFn f g).fm.arg1 = s.fm.arg1 := rfl
@[simp] theorem State.modFn_fm_arg2 (f : Nat) (g : Fn → Fn) : (s.modFn f g).fm.arg2 = s.fm.arg2 := rfl
@[simp] theorem State.modFn_fm_code (f : Nat) (g : Fn → Fn) : (s.modFn f g).fm.code = s.fm.code := rfl
@[simp] theorem State.modFn_fm_resFn (f : Nat) (g : Fn → Fn) : (s.modFn f g).fm.resFn = s.fm.resFn := rfl
@[simp] theorem State.modFn_fm_busy (f : Nat) (g : Fn → Fn) : (s.modFn f g).fm.busy = s.fm.busy := rfl
@[simp] theorem State.modFn_fm_valid (f : Nat) (g : Fn → Fn) : (s.modFn f g).fm.valid = s.fm.valid := rfl
@[simp] theorem State.modFn_fm_refused (f : Nat) (g : Fn → Fn) : (s.modFn f g).fm.refused = s.fm.refused := rfl
@[simp] theorem State.modFn_fm_refusedFn (f : Nat) (g : Fn → Fn) : (s.modFn f g).fm.refusedFn = s.fm.refusedFn := rfl
@[simp] theorem State.modFn_fm_defers (f : Nat) (g : Fn → Fn) : (s.modFn f g).fm.defers = s.fm.defers := rfl
@[simp] theorem State.modFn_fm_discards (f : Nat) (g : Fn → Fn) : (s.modFn f g).fm.discards = s.fm.discards := rfl
@[simp] theorem State.modFn_fm_drops (f : Nat) (g : Fn → Fn) : (s.modFn f g).fm.drops = s.fm.drops := rfl
@[simp] theorem State.modFn_fm_migFn (f : Nat) (g : Fn → Fn) : (s.modFn f g).fm.migFn = s.fm.migFn := rfl
@[simp] theorem State.modFn_fm_migPhase (f : Nat) (g : Fn → Fn) : (s.modFn f g).fm.migPhase = s.fm.migPhase := rfl
@[simp] theorem State.modFn_fm_segReady (f : Nat) (g : Fn → Fn) : (s.modFn f g).fm.segReady = s.fm.segReady := rfl
@[simp] theorem State.modFn_fm_segLen (f : Nat) (g : Fn → Fn) : (s.modFn f g).fm.segLen = s.fm.segLen := rfl
@[simp] theorem State.modFn_fm_last (f : Nat) (g : Fn → Fn) : (s.modFn f g).fm.last = s.fm.last := rfl
@[simp] theorem State.modFn_fm_dirty (f : Nat) (g : Fn → Fn) : (s.modFn f g).fm.dirty = s.fm.dirty := rfl
@[simp] theorem State.modFn_fm_error (f : Nat) (g : Fn → Fn) : (s.modFn f g).fm.error = s.fm.error := rfl
@[simp] theorem State.modFn_fm_zeroDone (f : Nat) (g : Fn → Fn) : (s.modFn f g).fm.zeroDone = s.fm.zeroDone := rfl
@[simp] theorem State.modFn_fm_drain (f : Nat) (g : Fn → Fn) : (s.modFn f g).fm.drain = s.fm.drain := rfl
@[simp] theorem State.modFn_fm_mig (f : Nat) (g : Fn → Fn) : (s.modFn f g).fm.mig = s.fm.mig := rfl
@[simp] theorem State.modFn_entry (f : Nat) (g : Fn → Fn) (e' : Nat) : (s.modFn f g).entry e' = s.entry e' := rfl
@[simp] theorem State.modFn_side (f : Nat) (g : Fn → Fn) (e' : Nat) : (s.modFn f g).side e' = s.side e' := rfl
@[simp] theorem State.modFn_dlist (f : Nat) (g : Fn → Fn) (b' : Nat) : (s.modFn f g).dlist b' = s.dlist b' := rfl
@[simp] theorem State.modFn_ctx (f : Nat) (g : Fn → Fn) (c' : Nat) : (s.modFn f g).ctx c' = s.ctx c' := rfl
@[simp] theorem State.modFn_ctxLock (f : Nat) (g : Fn → Fn) (c' : Nat) : (s.modFn f g).ctxLock c' = s.ctxLock c' := rfl
@[simp] theorem State.modFn_ctxWait (f : Nat) (g : Fn → Fn) (c' : Nat) : (s.modFn f g).ctxWait c' = s.ctxWait c' := rfl
@[simp] theorem State.modFn_target (f : Nat) (g : Fn → Fn) (t' : Nat) : (s.modFn f g).target t' = s.target t' := rfl
@[simp] theorem State.modFn_group (f : Nat) (g : Fn → Fn) (g' : Nat) : (s.modFn f g).group g' = s.group g' := rfl
@[simp] theorem State.modFn_visitor (f : Nat) (g : Fn → Fn) (v' : Nat) : (s.modFn f g).visitor v' = s.visitor v' := rfl
@[simp] theorem State.modFn_port (f : Nat) (g : Fn → Fn) (n' : Nat) : (s.modFn f g).port n' = s.port n' := rfl
@[simp] theorem State.modFn_peer (f : Nat) (g : Fn → Fn) (b' : Nat) : (s.modFn f g).peer b' = s.peer b' := rfl
@[simp] theorem State.modFn_queue (f : Nat) (g : Fn → Fn) (k' : Nat) : (s.modFn f g).queue k' = s.queue k' := rfl
@[simp] theorem State.modFn_porter (f : Nat) (g : Fn → Fn) (k' p' : Nat) : (s.modFn f g).porter k' p' = s.porter k' p' := rfl
@[simp] theorem State.modFn_chan (f : Nat) (g : Fn → Fn) (c' : Nat) : (s.modFn f g).chan c' = s.chan c' := rfl
@[simp] theorem State.modFn_chCfg (f : Nat) (g : Fn → Fn) (c' : Nat) : (s.modFn f g).chCfg c' = s.chCfg c' := rfl
@[simp] theorem State.modFn_region (f : Nat) (g : Fn → Fn) (n' : Nat) : (s.modFn f g).region n' = s.region n' := rfl
@[simp] theorem State.modFn_crfClass (f : Nat) (g : Fn → Fn) (c' : Nat) : (s.modFn f g).crfClass c' = s.crfClass c' := rfl
@[simp] theorem State.modFn_loopb (f : Nat) (g : Fn → Fn) (n' : Nat) : (s.modFn f g).loopb n' = s.loopb n' := rfl
@[simp] theorem State.modFn_dloop (f : Nat) (g : Fn → Fn) (k' : Nat) : (s.modFn f g).dloop k' = s.dloop k' := rfl
@[simp] theorem State.modFn_gbRange (f : Nat) (g : Fn → Fn) (k' : Nat) : (s.modFn f g).gbRange k' = s.gbRange k' := rfl
@[simp] theorem State.modFn_curve (f : Nat) (g : Fn → Fn) (k' st' : Nat) : (s.modFn f g).curve k' st' = s.curve k' st' := rfl
@[simp] theorem State.modFn_keyWindow (f : Nat) (g : Fn → Fn) (w' : Nat) : (s.modFn f g).keyWindow w' = s.keyWindow w' := rfl
@[simp] theorem State.modFn_levels (f : Nat) (g : Fn → Fn) (a' : Nat) : (s.modFn f g).levels a' = s.levels a' := rfl
@[simp] theorem State.modFn_ranks (f : Nat) (g : Fn → Fn) (a' : Nat) : (s.modFn f g).ranks a' = s.ranks a' := rfl
@[simp] theorem State.modFn_storeWord (f : Nat) (g : Fn → Fn) (i' : Nat) : (s.modFn f g).storeWord i' = s.storeWord i' := rfl
@[simp] theorem State.modFn_run (f : Nat) (g : Fn → Fn) (r' : RunRef) : (s.modFn f g).run r' = s.run r' := rfl

/-! ### modPort -/

@[simp] theorem State.modPort_hp (n : Nat) (g : Port → Port) : (s.modPort n g).hp = s.hp := rfl
@[simp] theorem State.modPort_ep (n : Nat) (g : Port → Port) : (s.modPort n g).ep = s.ep := rfl
@[simp] theorem State.modPort_tg (n : Nat) (g : Port → Port) : (s.modPort n g).tg = s.tg := rfl
@[simp] theorem State.modPort_lt (n : Nat) (g : Port → Port) : (s.modPort n g).lt = s.lt := rfl
@[simp] theorem State.modPort_wf (n : Nat) (g : Port → Port) : (s.modPort n g).wf = s.wf := rfl
@[simp] theorem State.modPort_mi (n : Nat) (g : Port → Port) : (s.modPort n g).mi = s.mi := rfl
@[simp] theorem State.modPort_lg (n : Nat) (g : Port → Port) : (s.modPort n g).lg = s.lg := rfl
@[simp] theorem State.modPort_pa (n : Nat) (g : Port → Port) : (s.modPort n g).pa = s.pa := rfl
@[simp] theorem State.modPort_st (n : Nat) (g : Port → Port) : (s.modPort n g).st = s.st := rfl
@[simp] theorem State.modPort_ab (n : Nat) (g : Port → Port) : (s.modPort n g).ab = s.ab := rfl
@[simp] theorem State.modPort_rn (n : Nat) (g : Port → Port) : (s.modPort n g).rn = s.rn := rfl
@[simp] theorem State.modPort_cf (n : Nat) (g : Port → Port) : (s.modPort n g).cf = s.cf := rfl
@[simp] theorem State.modPort_fm (n : Nat) (g : Port → Port) : (s.modPort n g).fm = s.fm := rfl
@[simp] theorem State.modPort_er (n : Nat) (g : Port → Port) : (s.modPort n g).er = s.er := rfl
@[simp] theorem State.modPort_np (n : Nat) (g : Port → Port) : (s.modPort n g).np = s.np := rfl
@[simp] theorem State.modPort_ts (n : Nat) (g : Port → Port) : (s.modPort n g).ts = s.ts := rfl
@[simp] theorem State.modPort_gb (n : Nat) (g : Port → Port) : (s.modPort n g).gb = s.gb := rfl
@[simp] theorem State.modPort_gl (n : Nat) (g : Port → Port) : (s.modPort n g).gl = s.gl := rfl
@[simp] theorem State.modPort_free (n : Nat) (g : Port → Port) : (s.modPort n g).free = s.free := rfl
@[simp] theorem State.modPort_blocked (n : Nat) (g : Port → Port) : (s.modPort n g).blocked = s.blocked := rfl
@[simp] theorem State.modPort_pending (n : Nat) (g : Port → Port) : (s.modPort n g).pending = s.pending := rfl
@[simp] theorem State.modPort_cu_route (n : Nat) (g : Port → Port) : (s.modPort n g).cu.route = s.cu.route := rfl
@[simp] theorem State.modPort_cu_roomGrant (n : Nat) (g : Port → Port) : (s.modPort n g).cu.roomGrant = s.cu.roomGrant := rfl
@[simp] theorem State.modPort_cu_peers (n : Nat) (g : Port → Port) : (s.modPort n g).cu.peers = s.cu.peers := rfl
@[simp] theorem State.modPort_cu_pairEn (n : Nat) (g : Port → Port) : (s.modPort n g).cu.pairEn = s.cu.pairEn := rfl
@[simp] theorem State.modPort_cu_pairPort (n : Nat) (g : Port → Port) : (s.modPort n g).cu.pairPort = s.cu.pairPort := rfl
@[simp] theorem State.modPort_cu_oldPort (n : Nat) (g : Port → Port) : (s.modPort n g).cu.oldPort = s.cu.oldPort := rfl
@[simp] theorem State.modPort_cu_partner (n : Nat) (g : Port → Port) : (s.modPort n g).cu.partner = s.cu.partner := rfl
@[simp] theorem State.modPort_cu_pairAuto (n : Nat) (g : Port → Port) : (s.modPort n g).cu.pairAuto = s.cu.pairAuto := rfl
@[simp] theorem State.modPort_cu_zpromote (n : Nat) (g : Port → Port) : (s.modPort n g).cu.zpromote = s.cu.zpromote := rfl
@[simp] theorem State.modPort_cu_pair (n : Nat) (g : Port → Port) : (s.modPort n g).cu.pair = s.cu.pair := rfl
@[simp] theorem State.modPort_cu_groupNo (n : Nat) (g : Port → Port) : (s.modPort n g).cu.groupNo = s.cu.groupNo := rfl
@[simp] theorem State.modPort_cu_ackedNo (n : Nat) (g : Port → Port) : (s.modPort n g).cu.ackedNo = s.cu.ackedNo := rfl
@[simp] theorem State.modPort_cu_backlog (n : Nat) (g : Port → Port) : (s.modPort n g).cu.backlog = s.cu.backlog := rfl
@[simp] theorem State.modPort_cu_mirrorIn (n : Nat) (g : Port → Port) : (s.modPort n g).cu.mirrorIn = s.cu.mirrorIn := rfl
@[simp] theorem State.modPort_cu_mirrorQ (n : Nat) (g : Port → Port) : (s.modPort n g).cu.mirrorQ = s.cu.mirrorQ := rfl
@[simp] theorem State.modPort_cu_shEntries (n : Nat) (g : Port → Port) : (s.modPort n g).cu.shEntries = s.cu.shEntries := rfl
@[simp] theorem State.modPort_cu_shCtxs (n : Nat) (g : Port → Port) : (s.modPort n g).cu.shCtxs = s.cu.shCtxs := rfl
@[simp] theorem State.modPort_cu_shFns (n : Nat) (g : Port → Port) : (s.modPort n g).cu.shFns = s.cu.shFns := rfl
@[simp] theorem State.modPort_cu_shHolds (n : Nat) (g : Port → Port) : (s.modPort n g).cu.shHolds = s.cu.shHolds := rfl
@[simp] theorem State.modPort_cu_unrestored (n : Nat) (g : Port → Port) : (s.modPort n g).cu.unrestored = s.cu.unrestored := rfl
@[simp] theorem State.modPort_entry (n : Nat) (g : Port → Port) (e' : Nat) : (s.modPort n g).entry e' = s.entry e' := rfl
@[simp] theorem State.modPort_side (n : Nat) (g : Port → Port) (e' : Nat) : (s.modPort n g).side e' = s.side e' := rfl
@[simp] theorem State.modPort_dlist (n : Nat) (g : Port → Port) (b' : Nat) : (s.modPort n g).dlist b' = s.dlist b' := rfl
@[simp] theorem State.modPort_ctx (n : Nat) (g : Port → Port) (c' : Nat) : (s.modPort n g).ctx c' = s.ctx c' := rfl
@[simp] theorem State.modPort_ctxLock (n : Nat) (g : Port → Port) (c' : Nat) : (s.modPort n g).ctxLock c' = s.ctxLock c' := rfl
@[simp] theorem State.modPort_ctxWait (n : Nat) (g : Port → Port) (c' : Nat) : (s.modPort n g).ctxWait c' = s.ctxWait c' := rfl
@[simp] theorem State.modPort_target (n : Nat) (g : Port → Port) (t' : Nat) : (s.modPort n g).target t' = s.target t' := rfl
@[simp] theorem State.modPort_group (n : Nat) (g : Port → Port) (g' : Nat) : (s.modPort n g).group g' = s.group g' := rfl
@[simp] theorem State.modPort_visitor (n : Nat) (g : Port → Port) (v' : Nat) : (s.modPort n g).visitor v' = s.visitor v' := rfl
@[simp] theorem State.modPort_fn (n : Nat) (g : Port → Port) (f' : Nat) : (s.modPort n g).fn f' = s.fn f' := rfl
@[simp] theorem State.modPort_peer (n : Nat) (g : Port → Port) (b' : Nat) : (s.modPort n g).peer b' = s.peer b' := rfl
@[simp] theorem State.modPort_queue (n : Nat) (g : Port → Port) (k' : Nat) : (s.modPort n g).queue k' = s.queue k' := rfl
@[simp] theorem State.modPort_porter (n : Nat) (g : Port → Port) (k' p' : Nat) : (s.modPort n g).porter k' p' = s.porter k' p' := rfl
@[simp] theorem State.modPort_chan (n : Nat) (g : Port → Port) (c' : Nat) : (s.modPort n g).chan c' = s.chan c' := rfl
@[simp] theorem State.modPort_chCfg (n : Nat) (g : Port → Port) (c' : Nat) : (s.modPort n g).chCfg c' = s.chCfg c' := rfl
@[simp] theorem State.modPort_region (n : Nat) (g : Port → Port) (n' : Nat) : (s.modPort n g).region n' = s.region n' := rfl
@[simp] theorem State.modPort_crfClass (n : Nat) (g : Port → Port) (c' : Nat) : (s.modPort n g).crfClass c' = s.crfClass c' := rfl
@[simp] theorem State.modPort_loopb (n : Nat) (g : Port → Port) (n' : Nat) : (s.modPort n g).loopb n' = s.loopb n' := rfl
@[simp] theorem State.modPort_dloop (n : Nat) (g : Port → Port) (k' : Nat) : (s.modPort n g).dloop k' = s.dloop k' := rfl
@[simp] theorem State.modPort_gbRange (n : Nat) (g : Port → Port) (k' : Nat) : (s.modPort n g).gbRange k' = s.gbRange k' := rfl
@[simp] theorem State.modPort_curve (n : Nat) (g : Port → Port) (k' st' : Nat) : (s.modPort n g).curve k' st' = s.curve k' st' := rfl
@[simp] theorem State.modPort_keyWindow (n : Nat) (g : Port → Port) (w' : Nat) : (s.modPort n g).keyWindow w' = s.keyWindow w' := rfl
@[simp] theorem State.modPort_levels (n : Nat) (g : Port → Port) (a' : Nat) : (s.modPort n g).levels a' = s.levels a' := rfl
@[simp] theorem State.modPort_ranks (n : Nat) (g : Port → Port) (a' : Nat) : (s.modPort n g).ranks a' = s.ranks a' := rfl
@[simp] theorem State.modPort_storeWord (n : Nat) (g : Port → Port) (i' : Nat) : (s.modPort n g).storeWord i' = s.storeWord i' := rfl
@[simp] theorem State.modPort_run (n : Nat) (g : Port → Port) (r' : RunRef) : (s.modPort n g).run r' = s.run r' := rfl

/-! ### modPeer -/

@[simp] theorem State.modPeer_hp (b : Nat) (g : Peer → Peer) : (s.modPeer b g).hp = s.hp := rfl
@[simp] theorem State.modPeer_ep (b : Nat) (g : Peer → Peer) : (s.modPeer b g).ep = s.ep := rfl
@[simp] theorem State.modPeer_tg (b : Nat) (g : Peer → Peer) : (s.modPeer b g).tg = s.tg := rfl
@[simp] theorem State.modPeer_lt (b : Nat) (g : Peer → Peer) : (s.modPeer b g).lt = s.lt := rfl
@[simp] theorem State.modPeer_wf (b : Nat) (g : Peer → Peer) : (s.modPeer b g).wf = s.wf := rfl
@[simp] theorem State.modPeer_mi (b : Nat) (g : Peer → Peer) : (s.modPeer b g).mi = s.mi := rfl
@[simp] theorem State.modPeer_lg (b : Nat) (g : Peer → Peer) : (s.modPeer b g).lg = s.lg := rfl
@[simp] theorem State.modPeer_pa (b : Nat) (g : Peer → Peer) : (s.modPeer b g).pa = s.pa := rfl
@[simp] theorem State.modPeer_st (b : Nat) (g : Peer → Peer) : (s.modPeer b g).st = s.st := rfl
@[simp] theorem State.modPeer_ab (b : Nat) (g : Peer → Peer) : (s.modPeer b g).ab = s.ab := rfl
@[simp] theorem State.modPeer_rn (b : Nat) (g : Peer → Peer) : (s.modPeer b g).rn = s.rn := rfl
@[simp] theorem State.modPeer_cf (b : Nat) (g : Peer → Peer) : (s.modPeer b g).cf = s.cf := rfl
@[simp] theorem State.modPeer_fm (b : Nat) (g : Peer → Peer) : (s.modPeer b g).fm = s.fm := rfl
@[simp] theorem State.modPeer_er (b : Nat) (g : Peer → Peer) : (s.modPeer b g).er = s.er := rfl
@[simp] theorem State.modPeer_np (b : Nat) (g : Peer → Peer) : (s.modPeer b g).np = s.np := rfl
@[simp] theorem State.modPeer_ts (b : Nat) (g : Peer → Peer) : (s.modPeer b g).ts = s.ts := rfl
@[simp] theorem State.modPeer_gb (b : Nat) (g : Peer → Peer) : (s.modPeer b g).gb = s.gb := rfl
@[simp] theorem State.modPeer_gl (b : Nat) (g : Peer → Peer) : (s.modPeer b g).gl = s.gl := rfl
@[simp] theorem State.modPeer_free (b : Nat) (g : Peer → Peer) : (s.modPeer b g).free = s.free := rfl
@[simp] theorem State.modPeer_blocked (b : Nat) (g : Peer → Peer) : (s.modPeer b g).blocked = s.blocked := rfl
@[simp] theorem State.modPeer_pending (b : Nat) (g : Peer → Peer) : (s.modPeer b g).pending = s.pending := rfl
@[simp] theorem State.modPeer_cu_ports (b : Nat) (g : Peer → Peer) : (s.modPeer b g).cu.ports = s.cu.ports := rfl
@[simp] theorem State.modPeer_cu_route (b : Nat) (g : Peer → Peer) : (s.modPeer b g).cu.route = s.cu.route := rfl
@[simp] theorem State.modPeer_cu_roomGrant (b : Nat) (g : Peer → Peer) : (s.modPeer b g).cu.roomGrant = s.cu.roomGrant := rfl
@[simp] theorem State.modPeer_cu_pairEn (b : Nat) (g : Peer → Peer) : (s.modPeer b g).cu.pairEn = s.cu.pairEn := rfl
@[simp] theorem State.modPeer_cu_pairPort (b : Nat) (g : Peer → Peer) : (s.modPeer b g).cu.pairPort = s.cu.pairPort := rfl
@[simp] theorem State.modPeer_cu_oldPort (b : Nat) (g : Peer → Peer) : (s.modPeer b g).cu.oldPort = s.cu.oldPort := rfl
@[simp] theorem State.modPeer_cu_partner (b : Nat) (g : Peer → Peer) : (s.modPeer b g).cu.partner = s.cu.partner := rfl
@[simp] theorem State.modPeer_cu_pairAuto (b : Nat) (g : Peer → Peer) : (s.modPeer b g).cu.pairAuto = s.cu.pairAuto := rfl
@[simp] theorem State.modPeer_cu_zpromote (b : Nat) (g : Peer → Peer) : (s.modPeer b g).cu.zpromote = s.cu.zpromote := rfl
@[simp] theorem State.modPeer_cu_pair (b : Nat) (g : Peer → Peer) : (s.modPeer b g).cu.pair = s.cu.pair := rfl
@[simp] theorem State.modPeer_cu_groupNo (b : Nat) (g : Peer → Peer) : (s.modPeer b g).cu.groupNo = s.cu.groupNo := rfl
@[simp] theorem State.modPeer_cu_ackedNo (b : Nat) (g : Peer → Peer) : (s.modPeer b g).cu.ackedNo = s.cu.ackedNo := rfl
@[simp] theorem State.modPeer_cu_backlog (b : Nat) (g : Peer → Peer) : (s.modPeer b g).cu.backlog = s.cu.backlog := rfl
@[simp] theorem State.modPeer_cu_mirrorIn (b : Nat) (g : Peer → Peer) : (s.modPeer b g).cu.mirrorIn = s.cu.mirrorIn := rfl
@[simp] theorem State.modPeer_cu_mirrorQ (b : Nat) (g : Peer → Peer) : (s.modPeer b g).cu.mirrorQ = s.cu.mirrorQ := rfl
@[simp] theorem State.modPeer_cu_shEntries (b : Nat) (g : Peer → Peer) : (s.modPeer b g).cu.shEntries = s.cu.shEntries := rfl
@[simp] theorem State.modPeer_cu_shCtxs (b : Nat) (g : Peer → Peer) : (s.modPeer b g).cu.shCtxs = s.cu.shCtxs := rfl
@[simp] theorem State.modPeer_cu_shFns (b : Nat) (g : Peer → Peer) : (s.modPeer b g).cu.shFns = s.cu.shFns := rfl
@[simp] theorem State.modPeer_cu_shHolds (b : Nat) (g : Peer → Peer) : (s.modPeer b g).cu.shHolds = s.cu.shHolds := rfl
@[simp] theorem State.modPeer_cu_unrestored (b : Nat) (g : Peer → Peer) : (s.modPeer b g).cu.unrestored = s.cu.unrestored := rfl
@[simp] theorem State.modPeer_entry (b : Nat) (g : Peer → Peer) (e' : Nat) : (s.modPeer b g).entry e' = s.entry e' := rfl
@[simp] theorem State.modPeer_side (b : Nat) (g : Peer → Peer) (e' : Nat) : (s.modPeer b g).side e' = s.side e' := rfl
@[simp] theorem State.modPeer_dlist (b : Nat) (g : Peer → Peer) (b' : Nat) : (s.modPeer b g).dlist b' = s.dlist b' := rfl
@[simp] theorem State.modPeer_ctx (b : Nat) (g : Peer → Peer) (c' : Nat) : (s.modPeer b g).ctx c' = s.ctx c' := rfl
@[simp] theorem State.modPeer_ctxLock (b : Nat) (g : Peer → Peer) (c' : Nat) : (s.modPeer b g).ctxLock c' = s.ctxLock c' := rfl
@[simp] theorem State.modPeer_ctxWait (b : Nat) (g : Peer → Peer) (c' : Nat) : (s.modPeer b g).ctxWait c' = s.ctxWait c' := rfl
@[simp] theorem State.modPeer_target (b : Nat) (g : Peer → Peer) (t' : Nat) : (s.modPeer b g).target t' = s.target t' := rfl
@[simp] theorem State.modPeer_group (b : Nat) (g : Peer → Peer) (g' : Nat) : (s.modPeer b g).group g' = s.group g' := rfl
@[simp] theorem State.modPeer_visitor (b : Nat) (g : Peer → Peer) (v' : Nat) : (s.modPeer b g).visitor v' = s.visitor v' := rfl
@[simp] theorem State.modPeer_fn (b : Nat) (g : Peer → Peer) (f' : Nat) : (s.modPeer b g).fn f' = s.fn f' := rfl
@[simp] theorem State.modPeer_port (b : Nat) (g : Peer → Peer) (n' : Nat) : (s.modPeer b g).port n' = s.port n' := rfl
@[simp] theorem State.modPeer_queue (b : Nat) (g : Peer → Peer) (k' : Nat) : (s.modPeer b g).queue k' = s.queue k' := rfl
@[simp] theorem State.modPeer_porter (b : Nat) (g : Peer → Peer) (k' p' : Nat) : (s.modPeer b g).porter k' p' = s.porter k' p' := rfl
@[simp] theorem State.modPeer_chan (b : Nat) (g : Peer → Peer) (c' : Nat) : (s.modPeer b g).chan c' = s.chan c' := rfl
@[simp] theorem State.modPeer_chCfg (b : Nat) (g : Peer → Peer) (c' : Nat) : (s.modPeer b g).chCfg c' = s.chCfg c' := rfl
@[simp] theorem State.modPeer_region (b : Nat) (g : Peer → Peer) (n' : Nat) : (s.modPeer b g).region n' = s.region n' := rfl
@[simp] theorem State.modPeer_crfClass (b : Nat) (g : Peer → Peer) (c' : Nat) : (s.modPeer b g).crfClass c' = s.crfClass c' := rfl
@[simp] theorem State.modPeer_loopb (b : Nat) (g : Peer → Peer) (n' : Nat) : (s.modPeer b g).loopb n' = s.loopb n' := rfl
@[simp] theorem State.modPeer_dloop (b : Nat) (g : Peer → Peer) (k' : Nat) : (s.modPeer b g).dloop k' = s.dloop k' := rfl
@[simp] theorem State.modPeer_gbRange (b : Nat) (g : Peer → Peer) (k' : Nat) : (s.modPeer b g).gbRange k' = s.gbRange k' := rfl
@[simp] theorem State.modPeer_curve (b : Nat) (g : Peer → Peer) (k' st' : Nat) : (s.modPeer b g).curve k' st' = s.curve k' st' := rfl
@[simp] theorem State.modPeer_keyWindow (b : Nat) (g : Peer → Peer) (w' : Nat) : (s.modPeer b g).keyWindow w' = s.keyWindow w' := rfl
@[simp] theorem State.modPeer_levels (b : Nat) (g : Peer → Peer) (a' : Nat) : (s.modPeer b g).levels a' = s.levels a' := rfl
@[simp] theorem State.modPeer_ranks (b : Nat) (g : Peer → Peer) (a' : Nat) : (s.modPeer b g).ranks a' = s.ranks a' := rfl
@[simp] theorem State.modPeer_storeWord (b : Nat) (g : Peer → Peer) (i' : Nat) : (s.modPeer b g).storeWord i' = s.storeWord i' := rfl
@[simp] theorem State.modPeer_run (b : Nat) (g : Peer → Peer) (r' : RunRef) : (s.modPeer b g).run r' = s.run r' := rfl

/-! ### modQueue -/

@[simp] theorem State.modQueue_hp (k : Nat) (g : RunQueue → RunQueue) : (s.modQueue k g).hp = s.hp := rfl
@[simp] theorem State.modQueue_ep (k : Nat) (g : RunQueue → RunQueue) : (s.modQueue k g).ep = s.ep := rfl
@[simp] theorem State.modQueue_tg (k : Nat) (g : RunQueue → RunQueue) : (s.modQueue k g).tg = s.tg := rfl
@[simp] theorem State.modQueue_lt (k : Nat) (g : RunQueue → RunQueue) : (s.modQueue k g).lt = s.lt := rfl
@[simp] theorem State.modQueue_wf (k : Nat) (g : RunQueue → RunQueue) : (s.modQueue k g).wf = s.wf := rfl
@[simp] theorem State.modQueue_mi (k : Nat) (g : RunQueue → RunQueue) : (s.modQueue k g).mi = s.mi := rfl
@[simp] theorem State.modQueue_lg (k : Nat) (g : RunQueue → RunQueue) : (s.modQueue k g).lg = s.lg := rfl
@[simp] theorem State.modQueue_st (k : Nat) (g : RunQueue → RunQueue) : (s.modQueue k g).st = s.st := rfl
@[simp] theorem State.modQueue_ab (k : Nat) (g : RunQueue → RunQueue) : (s.modQueue k g).ab = s.ab := rfl
@[simp] theorem State.modQueue_rn (k : Nat) (g : RunQueue → RunQueue) : (s.modQueue k g).rn = s.rn := rfl
@[simp] theorem State.modQueue_cf (k : Nat) (g : RunQueue → RunQueue) : (s.modQueue k g).cf = s.cf := rfl
@[simp] theorem State.modQueue_fm (k : Nat) (g : RunQueue → RunQueue) : (s.modQueue k g).fm = s.fm := rfl
@[simp] theorem State.modQueue_cu (k : Nat) (g : RunQueue → RunQueue) : (s.modQueue k g).cu = s.cu := rfl
@[simp] theorem State.modQueue_er (k : Nat) (g : RunQueue → RunQueue) : (s.modQueue k g).er = s.er := rfl
@[simp] theorem State.modQueue_np (k : Nat) (g : RunQueue → RunQueue) : (s.modQueue k g).np = s.np := rfl
@[simp] theorem State.modQueue_ts (k : Nat) (g : RunQueue → RunQueue) : (s.modQueue k g).ts = s.ts := rfl
@[simp] theorem State.modQueue_gb (k : Nat) (g : RunQueue → RunQueue) : (s.modQueue k g).gb = s.gb := rfl
@[simp] theorem State.modQueue_gl (k : Nat) (g : RunQueue → RunQueue) : (s.modQueue k g).gl = s.gl := rfl
@[simp] theorem State.modQueue_free (k : Nat) (g : RunQueue → RunQueue) : (s.modQueue k g).free = s.free := rfl
@[simp] theorem State.modQueue_blocked (k : Nat) (g : RunQueue → RunQueue) : (s.modQueue k g).blocked = s.blocked := rfl
@[simp] theorem State.modQueue_pending (k : Nat) (g : RunQueue → RunQueue) : (s.modQueue k g).pending = s.pending := rfl
@[simp] theorem State.modQueue_pa_porters (k : Nat) (g : RunQueue → RunQueue) : (s.modQueue k g).pa.porters = s.pa.porters := rfl
@[simp] theorem State.modQueue_pa_runs (k : Nat) (g : RunQueue → RunQueue) : (s.modQueue k g).pa.runs = s.pa.runs := rfl
@[simp] theorem State.modQueue_pa_stranded (k : Nat) (g : RunQueue → RunQueue) : (s.modQueue k g).pa.stranded = s.pa.stranded := rfl
@[simp] theorem State.modQueue_pa_watch (k : Nat) (g : RunQueue → RunQueue) : (s.modQueue k g).pa.watch = s.pa.watch := rfl
@[simp] theorem State.modQueue_pa_order (k : Nat) (g : RunQueue → RunQueue) : (s.modQueue k g).pa.order = s.pa.order := rfl
@[simp] theorem State.modQueue_pa_serialHeld (k : Nat) (g : RunQueue → RunQueue) : (s.modQueue k g).pa.serialHeld = s.pa.serialHeld := rfl
@[simp] theorem State.modQueue_pa_serialQ (k : Nat) (g : RunQueue → RunQueue) : (s.modQueue k g).pa.serialQ = s.pa.serialQ := rfl
@[simp] theorem State.modQueue_pa_stealMin (k : Nat) (g : RunQueue → RunQueue) : (s.modQueue k g).pa.stealMin = s.pa.stealMin := rfl
@[simp] theorem State.modQueue_pa_switchTurn (k : Nat) (g : RunQueue → RunQueue) : (s.modQueue k g).pa.switchTurn = s.pa.switchTurn := rfl
@[simp] theorem State.modQueue_pa_watchdog (k : Nat) (g : RunQueue → RunQueue) : (s.modQueue k g).pa.watchdog = s.pa.watchdog := rfl
@[simp] theorem State.modQueue_pa_selfTrap (k : Nat) (g : RunQueue → RunQueue) : (s.modQueue k g).pa.selfTrap = s.pa.selfTrap := rfl
@[simp] theorem State.modQueue_pa_conflict (k : Nat) (g : RunQueue → RunQueue) : (s.modQueue k g).pa.conflict = s.pa.conflict := rfl
@[simp] theorem State.modQueue_pa_serialCnt (k : Nat) (g : RunQueue → RunQueue) : (s.modQueue k g).pa.serialCnt = s.pa.serialCnt := rfl
@[simp] theorem State.modQueue_pa_stealCnt (k : Nat) (g : RunQueue → RunQueue) : (s.modQueue k g).pa.stealCnt = s.pa.stealCnt := rfl
@[simp] theorem State.modQueue_pa_trapCnt (k : Nat) (g : RunQueue → RunQueue) : (s.modQueue k g).pa.trapCnt = s.pa.trapCnt := rfl
@[simp] theorem State.modQueue_pa_pace (k : Nat) (g : RunQueue → RunQueue) : (s.modQueue k g).pa.pace = s.pa.pace := rfl
@[simp] theorem State.modQueue_pa_paceMin (k : Nat) (g : RunQueue → RunQueue) : (s.modQueue k g).pa.paceMin = s.pa.paceMin := rfl
@[simp] theorem State.modQueue_pa_paceMax (k : Nat) (g : RunQueue → RunQueue) : (s.modQueue k g).pa.paceMax = s.pa.paceMax := rfl
@[simp] theorem State.modQueue_pa_paceValid (k : Nat) (g : RunQueue → RunQueue) : (s.modQueue k g).pa.paceValid = s.pa.paceValid := rfl
@[simp] theorem State.modQueue_pa_paceNew (k : Nat) (g : RunQueue → RunQueue) : (s.modQueue k g).pa.paceNew = s.pa.paceNew := rfl
@[simp] theorem State.modQueue_entry (k : Nat) (g : RunQueue → RunQueue) (e' : Nat) : (s.modQueue k g).entry e' = s.entry e' := rfl
@[simp] theorem State.modQueue_side (k : Nat) (g : RunQueue → RunQueue) (e' : Nat) : (s.modQueue k g).side e' = s.side e' := rfl
@[simp] theorem State.modQueue_dlist (k : Nat) (g : RunQueue → RunQueue) (b' : Nat) : (s.modQueue k g).dlist b' = s.dlist b' := rfl
@[simp] theorem State.modQueue_ctx (k : Nat) (g : RunQueue → RunQueue) (c' : Nat) : (s.modQueue k g).ctx c' = s.ctx c' := rfl
@[simp] theorem State.modQueue_ctxLock (k : Nat) (g : RunQueue → RunQueue) (c' : Nat) : (s.modQueue k g).ctxLock c' = s.ctxLock c' := rfl
@[simp] theorem State.modQueue_ctxWait (k : Nat) (g : RunQueue → RunQueue) (c' : Nat) : (s.modQueue k g).ctxWait c' = s.ctxWait c' := rfl
@[simp] theorem State.modQueue_target (k : Nat) (g : RunQueue → RunQueue) (t' : Nat) : (s.modQueue k g).target t' = s.target t' := rfl
@[simp] theorem State.modQueue_group (k : Nat) (g : RunQueue → RunQueue) (g' : Nat) : (s.modQueue k g).group g' = s.group g' := rfl
@[simp] theorem State.modQueue_visitor (k : Nat) (g : RunQueue → RunQueue) (v' : Nat) : (s.modQueue k g).visitor v' = s.visitor v' := rfl
@[simp] theorem State.modQueue_fn (k : Nat) (g : RunQueue → RunQueue) (f' : Nat) : (s.modQueue k g).fn f' = s.fn f' := rfl
@[simp] theorem State.modQueue_port (k : Nat) (g : RunQueue → RunQueue) (n' : Nat) : (s.modQueue k g).port n' = s.port n' := rfl
@[simp] theorem State.modQueue_peer (k : Nat) (g : RunQueue → RunQueue) (b' : Nat) : (s.modQueue k g).peer b' = s.peer b' := rfl
@[simp] theorem State.modQueue_porter (k : Nat) (g : RunQueue → RunQueue) (k' p' : Nat) : (s.modQueue k g).porter k' p' = s.porter k' p' := rfl
@[simp] theorem State.modQueue_chan (k : Nat) (g : RunQueue → RunQueue) (c' : Nat) : (s.modQueue k g).chan c' = s.chan c' := rfl
@[simp] theorem State.modQueue_chCfg (k : Nat) (g : RunQueue → RunQueue) (c' : Nat) : (s.modQueue k g).chCfg c' = s.chCfg c' := rfl
@[simp] theorem State.modQueue_region (k : Nat) (g : RunQueue → RunQueue) (n' : Nat) : (s.modQueue k g).region n' = s.region n' := rfl
@[simp] theorem State.modQueue_crfClass (k : Nat) (g : RunQueue → RunQueue) (c' : Nat) : (s.modQueue k g).crfClass c' = s.crfClass c' := rfl
@[simp] theorem State.modQueue_loopb (k : Nat) (g : RunQueue → RunQueue) (n' : Nat) : (s.modQueue k g).loopb n' = s.loopb n' := rfl
@[simp] theorem State.modQueue_dloop (k : Nat) (g : RunQueue → RunQueue) (k' : Nat) : (s.modQueue k g).dloop k' = s.dloop k' := rfl
@[simp] theorem State.modQueue_gbRange (k : Nat) (g : RunQueue → RunQueue) (k' : Nat) : (s.modQueue k g).gbRange k' = s.gbRange k' := rfl
@[simp] theorem State.modQueue_curve (k : Nat) (g : RunQueue → RunQueue) (k' st' : Nat) : (s.modQueue k g).curve k' st' = s.curve k' st' := rfl
@[simp] theorem State.modQueue_keyWindow (k : Nat) (g : RunQueue → RunQueue) (w' : Nat) : (s.modQueue k g).keyWindow w' = s.keyWindow w' := rfl
@[simp] theorem State.modQueue_levels (k : Nat) (g : RunQueue → RunQueue) (a' : Nat) : (s.modQueue k g).levels a' = s.levels a' := rfl
@[simp] theorem State.modQueue_ranks (k : Nat) (g : RunQueue → RunQueue) (a' : Nat) : (s.modQueue k g).ranks a' = s.ranks a' := rfl
@[simp] theorem State.modQueue_storeWord (k : Nat) (g : RunQueue → RunQueue) (i' : Nat) : (s.modQueue k g).storeWord i' = s.storeWord i' := rfl
@[simp] theorem State.modQueue_run (k : Nat) (g : RunQueue → RunQueue) (r' : RunRef) : (s.modQueue k g).run r' = s.run r' := rfl

/-! ### modPorter -/

@[simp] theorem State.modPorter_hp (k p : Nat) (g : Porter → Porter) : (s.modPorter k p g).hp = s.hp := rfl
@[simp] theorem State.modPorter_ep (k p : Nat) (g : Porter → Porter) : (s.modPorter k p g).ep = s.ep := rfl
@[simp] theorem State.modPorter_tg (k p : Nat) (g : Porter → Porter) : (s.modPorter k p g).tg = s.tg := rfl
@[simp] theorem State.modPorter_lt (k p : Nat) (g : Porter → Porter) : (s.modPorter k p g).lt = s.lt := rfl
@[simp] theorem State.modPorter_wf (k p : Nat) (g : Porter → Porter) : (s.modPorter k p g).wf = s.wf := rfl
@[simp] theorem State.modPorter_mi (k p : Nat) (g : Porter → Porter) : (s.modPorter k p g).mi = s.mi := rfl
@[simp] theorem State.modPorter_lg (k p : Nat) (g : Porter → Porter) : (s.modPorter k p g).lg = s.lg := rfl
@[simp] theorem State.modPorter_st (k p : Nat) (g : Porter → Porter) : (s.modPorter k p g).st = s.st := rfl
@[simp] theorem State.modPorter_ab (k p : Nat) (g : Porter → Porter) : (s.modPorter k p g).ab = s.ab := rfl
@[simp] theorem State.modPorter_rn (k p : Nat) (g : Porter → Porter) : (s.modPorter k p g).rn = s.rn := rfl
@[simp] theorem State.modPorter_cf (k p : Nat) (g : Porter → Porter) : (s.modPorter k p g).cf = s.cf := rfl
@[simp] theorem State.modPorter_fm (k p : Nat) (g : Porter → Porter) : (s.modPorter k p g).fm = s.fm := rfl
@[simp] theorem State.modPorter_cu (k p : Nat) (g : Porter → Porter) : (s.modPorter k p g).cu = s.cu := rfl
@[simp] theorem State.modPorter_er (k p : Nat) (g : Porter → Porter) : (s.modPorter k p g).er = s.er := rfl
@[simp] theorem State.modPorter_np (k p : Nat) (g : Porter → Porter) : (s.modPorter k p g).np = s.np := rfl
@[simp] theorem State.modPorter_ts (k p : Nat) (g : Porter → Porter) : (s.modPorter k p g).ts = s.ts := rfl
@[simp] theorem State.modPorter_gb (k p : Nat) (g : Porter → Porter) : (s.modPorter k p g).gb = s.gb := rfl
@[simp] theorem State.modPorter_gl (k p : Nat) (g : Porter → Porter) : (s.modPorter k p g).gl = s.gl := rfl
@[simp] theorem State.modPorter_free (k p : Nat) (g : Porter → Porter) : (s.modPorter k p g).free = s.free := rfl
@[simp] theorem State.modPorter_blocked (k p : Nat) (g : Porter → Porter) : (s.modPorter k p g).blocked = s.blocked := rfl
@[simp] theorem State.modPorter_pending (k p : Nat) (g : Porter → Porter) : (s.modPorter k p g).pending = s.pending := rfl
@[simp] theorem State.modPorter_pa_runs (k p : Nat) (g : Porter → Porter) : (s.modPorter k p g).pa.runs = s.pa.runs := rfl
@[simp] theorem State.modPorter_pa_stranded (k p : Nat) (g : Porter → Porter) : (s.modPorter k p g).pa.stranded = s.pa.stranded := rfl
@[simp] theorem State.modPorter_pa_watch (k p : Nat) (g : Porter → Porter) : (s.modPorter k p g).pa.watch = s.pa.watch := rfl
@[simp] theorem State.modPorter_pa_queues (k p : Nat) (g : Porter → Porter) : (s.modPorter k p g).pa.queues = s.pa.queues := rfl
@[simp] theorem State.modPorter_pa_order (k p : Nat) (g : Porter → Porter) : (s.modPorter k p g).pa.order = s.pa.order := rfl
@[simp] theorem State.modPorter_pa_serialHeld (k p : Nat) (g : Porter → Porter) : (s.modPorter k p g).pa.serialHeld = s.pa.serialHeld := rfl
@[simp] theorem State.modPorter_pa_serialQ (k p : Nat) (g : Porter → Porter) : (s.modPorter k p g).pa.serialQ = s.pa.serialQ := rfl
@[simp] theorem State.modPorter_pa_stealMin (k p : Nat) (g : Porter → Porter) : (s.modPorter k p g).pa.stealMin = s.pa.stealMin := rfl
@[simp] theorem State.modPorter_pa_switchTurn (k p : Nat) (g : Porter → Porter) : (s.modPorter k p g).pa.switchTurn = s.pa.switchTurn := rfl
@[simp] theorem State.modPorter_pa_watchdog (k p : Nat) (g : Porter → Porter) : (s.modPorter k p g).pa.watchdog = s.pa.watchdog := rfl
@[simp] theorem State.modPorter_pa_selfTrap (k p : Nat) (g : Porter → Porter) : (s.modPorter k p g).pa.selfTrap = s.pa.selfTrap := rfl
@[simp] theorem State.modPorter_pa_conflict (k p : Nat) (g : Porter → Porter) : (s.modPorter k p g).pa.conflict = s.pa.conflict := rfl
@[simp] theorem State.modPorter_pa_serialCnt (k p : Nat) (g : Porter → Porter) : (s.modPorter k p g).pa.serialCnt = s.pa.serialCnt := rfl
@[simp] theorem State.modPorter_pa_stealCnt (k p : Nat) (g : Porter → Porter) : (s.modPorter k p g).pa.stealCnt = s.pa.stealCnt := rfl
@[simp] theorem State.modPorter_pa_trapCnt (k p : Nat) (g : Porter → Porter) : (s.modPorter k p g).pa.trapCnt = s.pa.trapCnt := rfl
@[simp] theorem State.modPorter_pa_pace (k p : Nat) (g : Porter → Porter) : (s.modPorter k p g).pa.pace = s.pa.pace := rfl
@[simp] theorem State.modPorter_pa_paceMin (k p : Nat) (g : Porter → Porter) : (s.modPorter k p g).pa.paceMin = s.pa.paceMin := rfl
@[simp] theorem State.modPorter_pa_paceMax (k p : Nat) (g : Porter → Porter) : (s.modPorter k p g).pa.paceMax = s.pa.paceMax := rfl
@[simp] theorem State.modPorter_pa_paceValid (k p : Nat) (g : Porter → Porter) : (s.modPorter k p g).pa.paceValid = s.pa.paceValid := rfl
@[simp] theorem State.modPorter_pa_paceNew (k p : Nat) (g : Porter → Porter) : (s.modPorter k p g).pa.paceNew = s.pa.paceNew := rfl
@[simp] theorem State.modPorter_entry (k p : Nat) (g : Porter → Porter) (e' : Nat) : (s.modPorter k p g).entry e' = s.entry e' := rfl
@[simp] theorem State.modPorter_side (k p : Nat) (g : Porter → Porter) (e' : Nat) : (s.modPorter k p g).side e' = s.side e' := rfl
@[simp] theorem State.modPorter_dlist (k p : Nat) (g : Porter → Porter) (b' : Nat) : (s.modPorter k p g).dlist b' = s.dlist b' := rfl
@[simp] theorem State.modPorter_ctx (k p : Nat) (g : Porter → Porter) (c' : Nat) : (s.modPorter k p g).ctx c' = s.ctx c' := rfl
@[simp] theorem State.modPorter_ctxLock (k p : Nat) (g : Porter → Porter) (c' : Nat) : (s.modPorter k p g).ctxLock c' = s.ctxLock c' := rfl
@[simp] theorem State.modPorter_ctxWait (k p : Nat) (g : Porter → Porter) (c' : Nat) : (s.modPorter k p g).ctxWait c' = s.ctxWait c' := rfl
@[simp] theorem State.modPorter_target (k p : Nat) (g : Porter → Porter) (t' : Nat) : (s.modPorter k p g).target t' = s.target t' := rfl
@[simp] theorem State.modPorter_group (k p : Nat) (g : Porter → Porter) (g' : Nat) : (s.modPorter k p g).group g' = s.group g' := rfl
@[simp] theorem State.modPorter_visitor (k p : Nat) (g : Porter → Porter) (v' : Nat) : (s.modPorter k p g).visitor v' = s.visitor v' := rfl
@[simp] theorem State.modPorter_fn (k p : Nat) (g : Porter → Porter) (f' : Nat) : (s.modPorter k p g).fn f' = s.fn f' := rfl
@[simp] theorem State.modPorter_port (k p : Nat) (g : Porter → Porter) (n' : Nat) : (s.modPorter k p g).port n' = s.port n' := rfl
@[simp] theorem State.modPorter_peer (k p : Nat) (g : Porter → Porter) (b' : Nat) : (s.modPorter k p g).peer b' = s.peer b' := rfl
@[simp] theorem State.modPorter_queue (k p : Nat) (g : Porter → Porter) (k' : Nat) : (s.modPorter k p g).queue k' = s.queue k' := rfl
@[simp] theorem State.modPorter_chan (k p : Nat) (g : Porter → Porter) (c' : Nat) : (s.modPorter k p g).chan c' = s.chan c' := rfl
@[simp] theorem State.modPorter_chCfg (k p : Nat) (g : Porter → Porter) (c' : Nat) : (s.modPorter k p g).chCfg c' = s.chCfg c' := rfl
@[simp] theorem State.modPorter_region (k p : Nat) (g : Porter → Porter) (n' : Nat) : (s.modPorter k p g).region n' = s.region n' := rfl
@[simp] theorem State.modPorter_crfClass (k p : Nat) (g : Porter → Porter) (c' : Nat) : (s.modPorter k p g).crfClass c' = s.crfClass c' := rfl
@[simp] theorem State.modPorter_loopb (k p : Nat) (g : Porter → Porter) (n' : Nat) : (s.modPorter k p g).loopb n' = s.loopb n' := rfl
@[simp] theorem State.modPorter_dloop (k p : Nat) (g : Porter → Porter) (k' : Nat) : (s.modPorter k p g).dloop k' = s.dloop k' := rfl
@[simp] theorem State.modPorter_gbRange (k p : Nat) (g : Porter → Porter) (k' : Nat) : (s.modPorter k p g).gbRange k' = s.gbRange k' := rfl
@[simp] theorem State.modPorter_curve (k p : Nat) (g : Porter → Porter) (k' st' : Nat) : (s.modPorter k p g).curve k' st' = s.curve k' st' := rfl
@[simp] theorem State.modPorter_keyWindow (k p : Nat) (g : Porter → Porter) (w' : Nat) : (s.modPorter k p g).keyWindow w' = s.keyWindow w' := rfl
@[simp] theorem State.modPorter_levels (k p : Nat) (g : Porter → Porter) (a' : Nat) : (s.modPorter k p g).levels a' = s.levels a' := rfl
@[simp] theorem State.modPorter_ranks (k p : Nat) (g : Porter → Porter) (a' : Nat) : (s.modPorter k p g).ranks a' = s.ranks a' := rfl
@[simp] theorem State.modPorter_storeWord (k p : Nat) (g : Porter → Porter) (i' : Nat) : (s.modPorter k p g).storeWord i' = s.storeWord i' := rfl
@[simp] theorem State.modPorter_run (k p : Nat) (g : Porter → Porter) (r' : RunRef) : (s.modPorter k p g).run r' = s.run r' := rfl

/-! ### modChan -/

@[simp] theorem State.modChan_hp (c : Nat) (g : Channel → Channel) : (s.modChan c g).hp = s.hp := rfl
@[simp] theorem State.modChan_ep (c : Nat) (g : Channel → Channel) : (s.modChan c g).ep = s.ep := rfl
@[simp] theorem State.modChan_tg (c : Nat) (g : Channel → Channel) : (s.modChan c g).tg = s.tg := rfl
@[simp] theorem State.modChan_lt (c : Nat) (g : Channel → Channel) : (s.modChan c g).lt = s.lt := rfl
@[simp] theorem State.modChan_wf (c : Nat) (g : Channel → Channel) : (s.modChan c g).wf = s.wf := rfl
@[simp] theorem State.modChan_lg (c : Nat) (g : Channel → Channel) : (s.modChan c g).lg = s.lg := rfl
@[simp] theorem State.modChan_pa (c : Nat) (g : Channel → Channel) : (s.modChan c g).pa = s.pa := rfl
@[simp] theorem State.modChan_st (c : Nat) (g : Channel → Channel) : (s.modChan c g).st = s.st := rfl
@[simp] theorem State.modChan_ab (c : Nat) (g : Channel → Channel) : (s.modChan c g).ab = s.ab := rfl
@[simp] theorem State.modChan_rn (c : Nat) (g : Channel → Channel) : (s.modChan c g).rn = s.rn := rfl
@[simp] theorem State.modChan_cf (c : Nat) (g : Channel → Channel) : (s.modChan c g).cf = s.cf := rfl
@[simp] theorem State.modChan_fm (c : Nat) (g : Channel → Channel) : (s.modChan c g).fm = s.fm := rfl
@[simp] theorem State.modChan_cu (c : Nat) (g : Channel → Channel) : (s.modChan c g).cu = s.cu := rfl
@[simp] theorem State.modChan_er (c : Nat) (g : Channel → Channel) : (s.modChan c g).er = s.er := rfl
@[simp] theorem State.modChan_np (c : Nat) (g : Channel → Channel) : (s.modChan c g).np = s.np := rfl
@[simp] theorem State.modChan_ts (c : Nat) (g : Channel → Channel) : (s.modChan c g).ts = s.ts := rfl
@[simp] theorem State.modChan_gb (c : Nat) (g : Channel → Channel) : (s.modChan c g).gb = s.gb := rfl
@[simp] theorem State.modChan_gl (c : Nat) (g : Channel → Channel) : (s.modChan c g).gl = s.gl := rfl
@[simp] theorem State.modChan_free (c : Nat) (g : Channel → Channel) : (s.modChan c g).free = s.free := rfl
@[simp] theorem State.modChan_blocked (c : Nat) (g : Channel → Channel) : (s.modChan c g).blocked = s.blocked := rfl
@[simp] theorem State.modChan_pending (c : Nat) (g : Channel → Channel) : (s.modChan c g).pending = s.pending := rfl
@[simp] theorem State.modChan_mi_chCfg (c : Nat) (g : Channel → Channel) : (s.modChan c g).mi.chCfg = s.mi.chCfg := rfl
@[simp] theorem State.modChan_mi_denyCnt (c : Nat) (g : Channel → Channel) : (s.modChan c g).mi.denyCnt = s.mi.denyCnt := rfl
@[simp] theorem State.modChan_mi_deferCnt (c : Nat) (g : Channel → Channel) : (s.modChan c g).mi.deferCnt = s.mi.deferCnt := rfl
@[simp] theorem State.modChan_mi_engDiscard (c : Nat) (g : Channel → Channel) : (s.modChan c g).mi.engDiscard = s.mi.engDiscard := rfl
@[simp] theorem State.modChan_mi_engWait (c : Nat) (g : Channel → Channel) : (s.modChan c g).mi.engWait = s.mi.engWait := rfl
@[simp] theorem State.modChan_mi_nextStamp (c : Nat) (g : Channel → Channel) : (s.modChan c g).mi.nextStamp = s.mi.nextStamp := rfl
@[simp] theorem State.modChan_mi_postings (c : Nat) (g : Channel → Channel) : (s.modChan c g).mi.postings = s.mi.postings := rfl
@[simp] theorem State.modChan_mi_fences (c : Nat) (g : Channel → Channel) : (s.modChan c g).mi.fences = s.mi.fences := rfl
@[simp] theorem State.modChan_entry (c : Nat) (g : Channel → Channel) (e' : Nat) : (s.modChan c g).entry e' = s.entry e' := rfl
@[simp] theorem State.modChan_side (c : Nat) (g : Channel → Channel) (e' : Nat) : (s.modChan c g).side e' = s.side e' := rfl
@[simp] theorem State.modChan_dlist (c : Nat) (g : Channel → Channel) (b' : Nat) : (s.modChan c g).dlist b' = s.dlist b' := rfl
@[simp] theorem State.modChan_ctx (c : Nat) (g : Channel → Channel) (c' : Nat) : (s.modChan c g).ctx c' = s.ctx c' := rfl
@[simp] theorem State.modChan_ctxLock (c : Nat) (g : Channel → Channel) (c' : Nat) : (s.modChan c g).ctxLock c' = s.ctxLock c' := rfl
@[simp] theorem State.modChan_ctxWait (c : Nat) (g : Channel → Channel) (c' : Nat) : (s.modChan c g).ctxWait c' = s.ctxWait c' := rfl
@[simp] theorem State.modChan_target (c : Nat) (g : Channel → Channel) (t' : Nat) : (s.modChan c g).target t' = s.target t' := rfl
@[simp] theorem State.modChan_group (c : Nat) (g : Channel → Channel) (g' : Nat) : (s.modChan c g).group g' = s.group g' := rfl
@[simp] theorem State.modChan_visitor (c : Nat) (g : Channel → Channel) (v' : Nat) : (s.modChan c g).visitor v' = s.visitor v' := rfl
@[simp] theorem State.modChan_fn (c : Nat) (g : Channel → Channel) (f' : Nat) : (s.modChan c g).fn f' = s.fn f' := rfl
@[simp] theorem State.modChan_port (c : Nat) (g : Channel → Channel) (n' : Nat) : (s.modChan c g).port n' = s.port n' := rfl
@[simp] theorem State.modChan_peer (c : Nat) (g : Channel → Channel) (b' : Nat) : (s.modChan c g).peer b' = s.peer b' := rfl
@[simp] theorem State.modChan_queue (c : Nat) (g : Channel → Channel) (k' : Nat) : (s.modChan c g).queue k' = s.queue k' := rfl
@[simp] theorem State.modChan_porter (c : Nat) (g : Channel → Channel) (k' p' : Nat) : (s.modChan c g).porter k' p' = s.porter k' p' := rfl
@[simp] theorem State.modChan_chCfg (c : Nat) (g : Channel → Channel) (c' : Nat) : (s.modChan c g).chCfg c' = s.chCfg c' := rfl
@[simp] theorem State.modChan_region (c : Nat) (g : Channel → Channel) (n' : Nat) : (s.modChan c g).region n' = s.region n' := rfl
@[simp] theorem State.modChan_crfClass (c : Nat) (g : Channel → Channel) (c' : Nat) : (s.modChan c g).crfClass c' = s.crfClass c' := rfl
@[simp] theorem State.modChan_loopb (c : Nat) (g : Channel → Channel) (n' : Nat) : (s.modChan c g).loopb n' = s.loopb n' := rfl
@[simp] theorem State.modChan_dloop (c : Nat) (g : Channel → Channel) (k' : Nat) : (s.modChan c g).dloop k' = s.dloop k' := rfl
@[simp] theorem State.modChan_gbRange (c : Nat) (g : Channel → Channel) (k' : Nat) : (s.modChan c g).gbRange k' = s.gbRange k' := rfl
@[simp] theorem State.modChan_curve (c : Nat) (g : Channel → Channel) (k' st' : Nat) : (s.modChan c g).curve k' st' = s.curve k' st' := rfl
@[simp] theorem State.modChan_keyWindow (c : Nat) (g : Channel → Channel) (w' : Nat) : (s.modChan c g).keyWindow w' = s.keyWindow w' := rfl
@[simp] theorem State.modChan_levels (c : Nat) (g : Channel → Channel) (a' : Nat) : (s.modChan c g).levels a' = s.levels a' := rfl
@[simp] theorem State.modChan_ranks (c : Nat) (g : Channel → Channel) (a' : Nat) : (s.modChan c g).ranks a' = s.ranks a' := rfl
@[simp] theorem State.modChan_storeWord (c : Nat) (g : Channel → Channel) (i' : Nat) : (s.modChan c g).storeWord i' = s.storeWord i' := rfl
@[simp] theorem State.modChan_run (c : Nat) (g : Channel → Channel) (r' : RunRef) : (s.modChan c g).run r' = s.run r' := rfl

/-! ### modLoop -/

@[simp] theorem State.modLoop_hp (n : Nat) (g : Loopback → Loopback) : (s.modLoop n g).hp = s.hp := rfl
@[simp] theorem State.modLoop_ep (n : Nat) (g : Loopback → Loopback) : (s.modLoop n g).ep = s.ep := rfl
@[simp] theorem State.modLoop_tg (n : Nat) (g : Loopback → Loopback) : (s.modLoop n g).tg = s.tg := rfl
@[simp] theorem State.modLoop_lt (n : Nat) (g : Loopback → Loopback) : (s.modLoop n g).lt = s.lt := rfl
@[simp] theorem State.modLoop_wf (n : Nat) (g : Loopback → Loopback) : (s.modLoop n g).wf = s.wf := rfl
@[simp] theorem State.modLoop_mi (n : Nat) (g : Loopback → Loopback) : (s.modLoop n g).mi = s.mi := rfl
@[simp] theorem State.modLoop_lg (n : Nat) (g : Loopback → Loopback) : (s.modLoop n g).lg = s.lg := rfl
@[simp] theorem State.modLoop_pa (n : Nat) (g : Loopback → Loopback) : (s.modLoop n g).pa = s.pa := rfl
@[simp] theorem State.modLoop_st (n : Nat) (g : Loopback → Loopback) : (s.modLoop n g).st = s.st := rfl
@[simp] theorem State.modLoop_ab (n : Nat) (g : Loopback → Loopback) : (s.modLoop n g).ab = s.ab := rfl
@[simp] theorem State.modLoop_rn (n : Nat) (g : Loopback → Loopback) : (s.modLoop n g).rn = s.rn := rfl
@[simp] theorem State.modLoop_cf (n : Nat) (g : Loopback → Loopback) : (s.modLoop n g).cf = s.cf := rfl
@[simp] theorem State.modLoop_fm (n : Nat) (g : Loopback → Loopback) : (s.modLoop n g).fm = s.fm := rfl
@[simp] theorem State.modLoop_cu (n : Nat) (g : Loopback → Loopback) : (s.modLoop n g).cu = s.cu := rfl
@[simp] theorem State.modLoop_er (n : Nat) (g : Loopback → Loopback) : (s.modLoop n g).er = s.er := rfl
@[simp] theorem State.modLoop_np (n : Nat) (g : Loopback → Loopback) : (s.modLoop n g).np = s.np := rfl
@[simp] theorem State.modLoop_gb (n : Nat) (g : Loopback → Loopback) : (s.modLoop n g).gb = s.gb := rfl
@[simp] theorem State.modLoop_gl (n : Nat) (g : Loopback → Loopback) : (s.modLoop n g).gl = s.gl := rfl
@[simp] theorem State.modLoop_free (n : Nat) (g : Loopback → Loopback) : (s.modLoop n g).free = s.free := rfl
@[simp] theorem State.modLoop_blocked (n : Nat) (g : Loopback → Loopback) : (s.modLoop n g).blocked = s.blocked := rfl
@[simp] theorem State.modLoop_pending (n : Nat) (g : Loopback → Loopback) : (s.modLoop n g).pending = s.pending := rfl
@[simp] theorem State.modLoop_ts_phase (n : Nat) (g : Loopback → Loopback) : (s.modLoop n g).ts.phase = s.ts.phase := rfl
@[simp] theorem State.modLoop_ts_bistDone (n : Nat) (g : Loopback → Loopback) : (s.modLoop n g).ts.bistDone = s.ts.bistDone := rfl
@[simp] theorem State.modLoop_ts_bistPass (n : Nat) (g : Loopback → Loopback) : (s.modLoop n g).ts.bistPass = s.ts.bistPass := rfl
@[simp] theorem State.modLoop_ts_bistArray (n : Nat) (g : Loopback → Loopback) : (s.modLoop n g).ts.bistArray = s.ts.bistArray := rfl
@[simp] theorem State.modLoop_ts_bistInst (n : Nat) (g : Loopback → Loopback) : (s.modLoop n g).ts.bistInst = s.ts.bistInst := rfl
@[simp] theorem State.modLoop_ts_clusters (n : Nat) (g : Loopback → Loopback) : (s.modLoop n g).ts.clusters = s.ts.clusters := rfl
@[simp] theorem State.modLoop_ts_portsLost (n : Nat) (g : Loopback → Loopback) : (s.modLoop n g).ts.portsLost = s.ts.portsLost := rfl
@[simp] theorem State.modLoop_ts_dloops (n : Nat) (g : Loopback → Loopback) : (s.modLoop n g).ts.dloops = s.ts.dloops := rfl
@[simp] theorem State.modLoop_ts_tapIr (n : Nat) (g : Loopback → Loopback) : (s.modLoop n g).ts.tapIr = s.ts.tapIr := rfl
@[simp] theorem State.modLoop_ts_tapDr (n : Nat) (g : Loopback → Loopback) : (s.modLoop n g).ts.tapDr = s.ts.tapDr := rfl
@[simp] theorem State.modLoop_ts_bsr (n : Nat) (g : Loopback → Loopback) : (s.modLoop n g).ts.bsr = s.ts.bsr := rfl
@[simp] theorem State.modLoop_ts_pins (n : Nat) (g : Loopback → Loopback) : (s.modLoop n g).ts.pins = s.ts.pins := rfl
@[simp] theorem State.modLoop_ts_maker (n : Nat) (g : Loopback → Loopback) : (s.modLoop n g).ts.maker = s.ts.maker := rfl
@[simp] theorem State.modLoop_entry (n : Nat) (g : Loopback → Loopback) (e' : Nat) : (s.modLoop n g).entry e' = s.entry e' := rfl
@[simp] theorem State.modLoop_side (n : Nat) (g : Loopback → Loopback) (e' : Nat) : (s.modLoop n g).side e' = s.side e' := rfl
@[simp] theorem State.modLoop_dlist (n : Nat) (g : Loopback → Loopback) (b' : Nat) : (s.modLoop n g).dlist b' = s.dlist b' := rfl
@[simp] theorem State.modLoop_ctx (n : Nat) (g : Loopback → Loopback) (c' : Nat) : (s.modLoop n g).ctx c' = s.ctx c' := rfl
@[simp] theorem State.modLoop_ctxLock (n : Nat) (g : Loopback → Loopback) (c' : Nat) : (s.modLoop n g).ctxLock c' = s.ctxLock c' := rfl
@[simp] theorem State.modLoop_ctxWait (n : Nat) (g : Loopback → Loopback) (c' : Nat) : (s.modLoop n g).ctxWait c' = s.ctxWait c' := rfl
@[simp] theorem State.modLoop_target (n : Nat) (g : Loopback → Loopback) (t' : Nat) : (s.modLoop n g).target t' = s.target t' := rfl
@[simp] theorem State.modLoop_group (n : Nat) (g : Loopback → Loopback) (g' : Nat) : (s.modLoop n g).group g' = s.group g' := rfl
@[simp] theorem State.modLoop_visitor (n : Nat) (g : Loopback → Loopback) (v' : Nat) : (s.modLoop n g).visitor v' = s.visitor v' := rfl
@[simp] theorem State.modLoop_fn (n : Nat) (g : Loopback → Loopback) (f' : Nat) : (s.modLoop n g).fn f' = s.fn f' := rfl
@[simp] theorem State.modLoop_port (n : Nat) (g : Loopback → Loopback) (n' : Nat) : (s.modLoop n g).port n' = s.port n' := rfl
@[simp] theorem State.modLoop_peer (n : Nat) (g : Loopback → Loopback) (b' : Nat) : (s.modLoop n g).peer b' = s.peer b' := rfl
@[simp] theorem State.modLoop_queue (n : Nat) (g : Loopback → Loopback) (k' : Nat) : (s.modLoop n g).queue k' = s.queue k' := rfl
@[simp] theorem State.modLoop_porter (n : Nat) (g : Loopback → Loopback) (k' p' : Nat) : (s.modLoop n g).porter k' p' = s.porter k' p' := rfl
@[simp] theorem State.modLoop_chan (n : Nat) (g : Loopback → Loopback) (c' : Nat) : (s.modLoop n g).chan c' = s.chan c' := rfl
@[simp] theorem State.modLoop_chCfg (n : Nat) (g : Loopback → Loopback) (c' : Nat) : (s.modLoop n g).chCfg c' = s.chCfg c' := rfl
@[simp] theorem State.modLoop_region (n : Nat) (g : Loopback → Loopback) (n' : Nat) : (s.modLoop n g).region n' = s.region n' := rfl
@[simp] theorem State.modLoop_crfClass (n : Nat) (g : Loopback → Loopback) (c' : Nat) : (s.modLoop n g).crfClass c' = s.crfClass c' := rfl
@[simp] theorem State.modLoop_dloop (n : Nat) (g : Loopback → Loopback) (k' : Nat) : (s.modLoop n g).dloop k' = s.dloop k' := rfl
@[simp] theorem State.modLoop_gbRange (n : Nat) (g : Loopback → Loopback) (k' : Nat) : (s.modLoop n g).gbRange k' = s.gbRange k' := rfl
@[simp] theorem State.modLoop_curve (n : Nat) (g : Loopback → Loopback) (k' st' : Nat) : (s.modLoop n g).curve k' st' = s.curve k' st' := rfl
@[simp] theorem State.modLoop_keyWindow (n : Nat) (g : Loopback → Loopback) (w' : Nat) : (s.modLoop n g).keyWindow w' = s.keyWindow w' := rfl
@[simp] theorem State.modLoop_levels (n : Nat) (g : Loopback → Loopback) (a' : Nat) : (s.modLoop n g).levels a' = s.levels a' := rfl
@[simp] theorem State.modLoop_ranks (n : Nat) (g : Loopback → Loopback) (a' : Nat) : (s.modLoop n g).ranks a' = s.ranks a' := rfl
@[simp] theorem State.modLoop_storeWord (n : Nat) (g : Loopback → Loopback) (i' : Nat) : (s.modLoop n g).storeWord i' = s.storeWord i' := rfl
@[simp] theorem State.modLoop_run (n : Nat) (g : Loopback → Loopback) (r' : RunRef) : (s.modLoop n g).run r' = s.run r' := rfl

/-! ### modDloop -/

@[simp] theorem State.modDloop_hp (k : Nat) (g : DLoop → DLoop) : (s.modDloop k g).hp = s.hp := rfl
@[simp] theorem State.modDloop_ep (k : Nat) (g : DLoop → DLoop) : (s.modDloop k g).ep = s.ep := rfl
@[simp] theorem State.modDloop_tg (k : Nat) (g : DLoop → DLoop) : (s.modDloop k g).tg = s.tg := rfl
@[simp] theorem State.modDloop_lt (k : Nat) (g : DLoop → DLoop) : (s.modDloop k g).lt = s.lt := rfl
@[simp] theorem State.modDloop_wf (k : Nat) (g : DLoop → DLoop) : (s.modDloop k g).wf = s.wf := rfl
@[simp] theorem State.modDloop_mi (k : Nat) (g : DLoop → DLoop) : (s.modDloop k g).mi = s.mi := rfl
@[simp] theorem State.modDloop_lg (k : Nat) (g : DLoop → DLoop) : (s.modDloop k g).lg = s.lg := rfl
@[simp] theorem State.modDloop_pa (k : Nat) (g : DLoop → DLoop) : (s.modDloop k g).pa = s.pa := rfl
@[simp] theorem State.modDloop_st (k : Nat) (g : DLoop → DLoop) : (s.modDloop k g).st = s.st := rfl
@[simp] theorem State.modDloop_ab (k : Nat) (g : DLoop → DLoop) : (s.modDloop k g).ab = s.ab := rfl
@[simp] theorem State.modDloop_rn (k : Nat) (g : DLoop → DLoop) : (s.modDloop k g).rn = s.rn := rfl
@[simp] theorem State.modDloop_cf (k : Nat) (g : DLoop → DLoop) : (s.modDloop k g).cf = s.cf := rfl
@[simp] theorem State.modDloop_fm (k : Nat) (g : DLoop → DLoop) : (s.modDloop k g).fm = s.fm := rfl
@[simp] theorem State.modDloop_cu (k : Nat) (g : DLoop → DLoop) : (s.modDloop k g).cu = s.cu := rfl
@[simp] theorem State.modDloop_er (k : Nat) (g : DLoop → DLoop) : (s.modDloop k g).er = s.er := rfl
@[simp] theorem State.modDloop_np (k : Nat) (g : DLoop → DLoop) : (s.modDloop k g).np = s.np := rfl
@[simp] theorem State.modDloop_gb (k : Nat) (g : DLoop → DLoop) : (s.modDloop k g).gb = s.gb := rfl
@[simp] theorem State.modDloop_gl (k : Nat) (g : DLoop → DLoop) : (s.modDloop k g).gl = s.gl := rfl
@[simp] theorem State.modDloop_free (k : Nat) (g : DLoop → DLoop) : (s.modDloop k g).free = s.free := rfl
@[simp] theorem State.modDloop_blocked (k : Nat) (g : DLoop → DLoop) : (s.modDloop k g).blocked = s.blocked := rfl
@[simp] theorem State.modDloop_pending (k : Nat) (g : DLoop → DLoop) : (s.modDloop k g).pending = s.pending := rfl
@[simp] theorem State.modDloop_ts_phase (k : Nat) (g : DLoop → DLoop) : (s.modDloop k g).ts.phase = s.ts.phase := rfl
@[simp] theorem State.modDloop_ts_bistDone (k : Nat) (g : DLoop → DLoop) : (s.modDloop k g).ts.bistDone = s.ts.bistDone := rfl
@[simp] theorem State.modDloop_ts_bistPass (k : Nat) (g : DLoop → DLoop) : (s.modDloop k g).ts.bistPass = s.ts.bistPass := rfl
@[simp] theorem State.modDloop_ts_bistArray (k : Nat) (g : DLoop → DLoop) : (s.modDloop k g).ts.bistArray = s.ts.bistArray := rfl
@[simp] theorem State.modDloop_ts_bistInst (k : Nat) (g : DLoop → DLoop) : (s.modDloop k g).ts.bistInst = s.ts.bistInst := rfl
@[simp] theorem State.modDloop_ts_clusters (k : Nat) (g : DLoop → DLoop) : (s.modDloop k g).ts.clusters = s.ts.clusters := rfl
@[simp] theorem State.modDloop_ts_portsLost (k : Nat) (g : DLoop → DLoop) : (s.modDloop k g).ts.portsLost = s.ts.portsLost := rfl
@[simp] theorem State.modDloop_ts_loops (k : Nat) (g : DLoop → DLoop) : (s.modDloop k g).ts.loops = s.ts.loops := rfl
@[simp] theorem State.modDloop_ts_tapIr (k : Nat) (g : DLoop → DLoop) : (s.modDloop k g).ts.tapIr = s.ts.tapIr := rfl
@[simp] theorem State.modDloop_ts_tapDr (k : Nat) (g : DLoop → DLoop) : (s.modDloop k g).ts.tapDr = s.ts.tapDr := rfl
@[simp] theorem State.modDloop_ts_bsr (k : Nat) (g : DLoop → DLoop) : (s.modDloop k g).ts.bsr = s.ts.bsr := rfl
@[simp] theorem State.modDloop_ts_pins (k : Nat) (g : DLoop → DLoop) : (s.modDloop k g).ts.pins = s.ts.pins := rfl
@[simp] theorem State.modDloop_ts_maker (k : Nat) (g : DLoop → DLoop) : (s.modDloop k g).ts.maker = s.ts.maker := rfl
@[simp] theorem State.modDloop_entry (k : Nat) (g : DLoop → DLoop) (e' : Nat) : (s.modDloop k g).entry e' = s.entry e' := rfl
@[simp] theorem State.modDloop_side (k : Nat) (g : DLoop → DLoop) (e' : Nat) : (s.modDloop k g).side e' = s.side e' := rfl
@[simp] theorem State.modDloop_dlist (k : Nat) (g : DLoop → DLoop) (b' : Nat) : (s.modDloop k g).dlist b' = s.dlist b' := rfl
@[simp] theorem State.modDloop_ctx (k : Nat) (g : DLoop → DLoop) (c' : Nat) : (s.modDloop k g).ctx c' = s.ctx c' := rfl
@[simp] theorem State.modDloop_ctxLock (k : Nat) (g : DLoop → DLoop) (c' : Nat) : (s.modDloop k g).ctxLock c' = s.ctxLock c' := rfl
@[simp] theorem State.modDloop_ctxWait (k : Nat) (g : DLoop → DLoop) (c' : Nat) : (s.modDloop k g).ctxWait c' = s.ctxWait c' := rfl
@[simp] theorem State.modDloop_target (k : Nat) (g : DLoop → DLoop) (t' : Nat) : (s.modDloop k g).target t' = s.target t' := rfl
@[simp] theorem State.modDloop_group (k : Nat) (g : DLoop → DLoop) (g' : Nat) : (s.modDloop k g).group g' = s.group g' := rfl
@[simp] theorem State.modDloop_visitor (k : Nat) (g : DLoop → DLoop) (v' : Nat) : (s.modDloop k g).visitor v' = s.visitor v' := rfl
@[simp] theorem State.modDloop_fn (k : Nat) (g : DLoop → DLoop) (f' : Nat) : (s.modDloop k g).fn f' = s.fn f' := rfl
@[simp] theorem State.modDloop_port (k : Nat) (g : DLoop → DLoop) (n' : Nat) : (s.modDloop k g).port n' = s.port n' := rfl
@[simp] theorem State.modDloop_peer (k : Nat) (g : DLoop → DLoop) (b' : Nat) : (s.modDloop k g).peer b' = s.peer b' := rfl
@[simp] theorem State.modDloop_queue (k : Nat) (g : DLoop → DLoop) (k' : Nat) : (s.modDloop k g).queue k' = s.queue k' := rfl
@[simp] theorem State.modDloop_porter (k : Nat) (g : DLoop → DLoop) (k' p' : Nat) : (s.modDloop k g).porter k' p' = s.porter k' p' := rfl
@[simp] theorem State.modDloop_chan (k : Nat) (g : DLoop → DLoop) (c' : Nat) : (s.modDloop k g).chan c' = s.chan c' := rfl
@[simp] theorem State.modDloop_chCfg (k : Nat) (g : DLoop → DLoop) (c' : Nat) : (s.modDloop k g).chCfg c' = s.chCfg c' := rfl
@[simp] theorem State.modDloop_region (k : Nat) (g : DLoop → DLoop) (n' : Nat) : (s.modDloop k g).region n' = s.region n' := rfl
@[simp] theorem State.modDloop_crfClass (k : Nat) (g : DLoop → DLoop) (c' : Nat) : (s.modDloop k g).crfClass c' = s.crfClass c' := rfl
@[simp] theorem State.modDloop_loopb (k : Nat) (g : DLoop → DLoop) (n' : Nat) : (s.modDloop k g).loopb n' = s.loopb n' := rfl
@[simp] theorem State.modDloop_gbRange (k : Nat) (g : DLoop → DLoop) (k' : Nat) : (s.modDloop k g).gbRange k' = s.gbRange k' := rfl
@[simp] theorem State.modDloop_curve (k : Nat) (g : DLoop → DLoop) (k' st' : Nat) : (s.modDloop k g).curve k' st' = s.curve k' st' := rfl
@[simp] theorem State.modDloop_keyWindow (k : Nat) (g : DLoop → DLoop) (w' : Nat) : (s.modDloop k g).keyWindow w' = s.keyWindow w' := rfl
@[simp] theorem State.modDloop_levels (k : Nat) (g : DLoop → DLoop) (a' : Nat) : (s.modDloop k g).levels a' = s.levels a' := rfl
@[simp] theorem State.modDloop_ranks (k : Nat) (g : DLoop → DLoop) (a' : Nat) : (s.modDloop k g).ranks a' = s.ranks a' := rfl
@[simp] theorem State.modDloop_storeWord (k : Nat) (g : DLoop → DLoop) (i' : Nat) : (s.modDloop k g).storeWord i' = s.storeWord i' := rfl
@[simp] theorem State.modDloop_run (k : Nat) (g : DLoop → DLoop) (r' : RunRef) : (s.modDloop k g).run r' = s.run r' := rfl

/-! ### setRun -/

@[simp] theorem State.setRun_hp (r : RunRef) (x : Option Run) : (s.setRun r x).hp = s.hp := rfl
@[simp] theorem State.setRun_ep (r : RunRef) (x : Option Run) : (s.setRun r x).ep = s.ep := rfl
@[simp] theorem State.setRun_tg (r : RunRef) (x : Option Run) : (s.setRun r x).tg = s.tg := rfl
@[simp] theorem State.setRun_lt (r : RunRef) (x : Option Run) : (s.setRun r x).lt = s.lt := rfl
@[simp] theorem State.setRun_wf (r : RunRef) (x : Option Run) : (s.setRun r x).wf = s.wf := rfl
@[simp] theorem State.setRun_mi (r : RunRef) (x : Option Run) : (s.setRun r x).mi = s.mi := rfl
@[simp] theorem State.setRun_lg (r : RunRef) (x : Option Run) : (s.setRun r x).lg = s.lg := rfl
@[simp] theorem State.setRun_st (r : RunRef) (x : Option Run) : (s.setRun r x).st = s.st := rfl
@[simp] theorem State.setRun_ab (r : RunRef) (x : Option Run) : (s.setRun r x).ab = s.ab := rfl
@[simp] theorem State.setRun_rn (r : RunRef) (x : Option Run) : (s.setRun r x).rn = s.rn := rfl
@[simp] theorem State.setRun_cf (r : RunRef) (x : Option Run) : (s.setRun r x).cf = s.cf := rfl
@[simp] theorem State.setRun_fm (r : RunRef) (x : Option Run) : (s.setRun r x).fm = s.fm := rfl
@[simp] theorem State.setRun_cu (r : RunRef) (x : Option Run) : (s.setRun r x).cu = s.cu := rfl
@[simp] theorem State.setRun_er (r : RunRef) (x : Option Run) : (s.setRun r x).er = s.er := rfl
@[simp] theorem State.setRun_np (r : RunRef) (x : Option Run) : (s.setRun r x).np = s.np := rfl
@[simp] theorem State.setRun_ts (r : RunRef) (x : Option Run) : (s.setRun r x).ts = s.ts := rfl
@[simp] theorem State.setRun_gb (r : RunRef) (x : Option Run) : (s.setRun r x).gb = s.gb := rfl
@[simp] theorem State.setRun_gl (r : RunRef) (x : Option Run) : (s.setRun r x).gl = s.gl := rfl
@[simp] theorem State.setRun_free (r : RunRef) (x : Option Run) : (s.setRun r x).free = s.free := rfl
@[simp] theorem State.setRun_blocked (r : RunRef) (x : Option Run) : (s.setRun r x).blocked = s.blocked := rfl
@[simp] theorem State.setRun_pending (r : RunRef) (x : Option Run) : (s.setRun r x).pending = s.pending := rfl
@[simp] theorem State.setRun_pa_porters (r : RunRef) (x : Option Run) : (s.setRun r x).pa.porters = s.pa.porters := rfl
@[simp] theorem State.setRun_pa_stranded (r : RunRef) (x : Option Run) : (s.setRun r x).pa.stranded = s.pa.stranded := rfl
@[simp] theorem State.setRun_pa_watch (r : RunRef) (x : Option Run) : (s.setRun r x).pa.watch = s.pa.watch := rfl
@[simp] theorem State.setRun_pa_queues (r : RunRef) (x : Option Run) : (s.setRun r x).pa.queues = s.pa.queues := rfl
@[simp] theorem State.setRun_pa_order (r : RunRef) (x : Option Run) : (s.setRun r x).pa.order = s.pa.order := rfl
@[simp] theorem State.setRun_pa_serialHeld (r : RunRef) (x : Option Run) : (s.setRun r x).pa.serialHeld = s.pa.serialHeld := rfl
@[simp] theorem State.setRun_pa_serialQ (r : RunRef) (x : Option Run) : (s.setRun r x).pa.serialQ = s.pa.serialQ := rfl
@[simp] theorem State.setRun_pa_stealMin (r : RunRef) (x : Option Run) : (s.setRun r x).pa.stealMin = s.pa.stealMin := rfl
@[simp] theorem State.setRun_pa_switchTurn (r : RunRef) (x : Option Run) : (s.setRun r x).pa.switchTurn = s.pa.switchTurn := rfl
@[simp] theorem State.setRun_pa_watchdog (r : RunRef) (x : Option Run) : (s.setRun r x).pa.watchdog = s.pa.watchdog := rfl
@[simp] theorem State.setRun_pa_selfTrap (r : RunRef) (x : Option Run) : (s.setRun r x).pa.selfTrap = s.pa.selfTrap := rfl
@[simp] theorem State.setRun_pa_conflict (r : RunRef) (x : Option Run) : (s.setRun r x).pa.conflict = s.pa.conflict := rfl
@[simp] theorem State.setRun_pa_serialCnt (r : RunRef) (x : Option Run) : (s.setRun r x).pa.serialCnt = s.pa.serialCnt := rfl
@[simp] theorem State.setRun_pa_stealCnt (r : RunRef) (x : Option Run) : (s.setRun r x).pa.stealCnt = s.pa.stealCnt := rfl
@[simp] theorem State.setRun_pa_trapCnt (r : RunRef) (x : Option Run) : (s.setRun r x).pa.trapCnt = s.pa.trapCnt := rfl
@[simp] theorem State.setRun_pa_pace (r : RunRef) (x : Option Run) : (s.setRun r x).pa.pace = s.pa.pace := rfl
@[simp] theorem State.setRun_pa_paceMin (r : RunRef) (x : Option Run) : (s.setRun r x).pa.paceMin = s.pa.paceMin := rfl
@[simp] theorem State.setRun_pa_paceMax (r : RunRef) (x : Option Run) : (s.setRun r x).pa.paceMax = s.pa.paceMax := rfl
@[simp] theorem State.setRun_pa_paceValid (r : RunRef) (x : Option Run) : (s.setRun r x).pa.paceValid = s.pa.paceValid := rfl
@[simp] theorem State.setRun_pa_paceNew (r : RunRef) (x : Option Run) : (s.setRun r x).pa.paceNew = s.pa.paceNew := rfl
@[simp] theorem State.setRun_entry (r : RunRef) (x : Option Run) (e' : Nat) : (s.setRun r x).entry e' = s.entry e' := rfl
@[simp] theorem State.setRun_side (r : RunRef) (x : Option Run) (e' : Nat) : (s.setRun r x).side e' = s.side e' := rfl
@[simp] theorem State.setRun_dlist (r : RunRef) (x : Option Run) (b' : Nat) : (s.setRun r x).dlist b' = s.dlist b' := rfl
@[simp] theorem State.setRun_ctx (r : RunRef) (x : Option Run) (c' : Nat) : (s.setRun r x).ctx c' = s.ctx c' := rfl
@[simp] theorem State.setRun_ctxLock (r : RunRef) (x : Option Run) (c' : Nat) : (s.setRun r x).ctxLock c' = s.ctxLock c' := rfl
@[simp] theorem State.setRun_ctxWait (r : RunRef) (x : Option Run) (c' : Nat) : (s.setRun r x).ctxWait c' = s.ctxWait c' := rfl
@[simp] theorem State.setRun_target (r : RunRef) (x : Option Run) (t' : Nat) : (s.setRun r x).target t' = s.target t' := rfl
@[simp] theorem State.setRun_group (r : RunRef) (x : Option Run) (g' : Nat) : (s.setRun r x).group g' = s.group g' := rfl
@[simp] theorem State.setRun_visitor (r : RunRef) (x : Option Run) (v' : Nat) : (s.setRun r x).visitor v' = s.visitor v' := rfl
@[simp] theorem State.setRun_fn (r : RunRef) (x : Option Run) (f' : Nat) : (s.setRun r x).fn f' = s.fn f' := rfl
@[simp] theorem State.setRun_port (r : RunRef) (x : Option Run) (n' : Nat) : (s.setRun r x).port n' = s.port n' := rfl
@[simp] theorem State.setRun_peer (r : RunRef) (x : Option Run) (b' : Nat) : (s.setRun r x).peer b' = s.peer b' := rfl
@[simp] theorem State.setRun_queue (r : RunRef) (x : Option Run) (k' : Nat) : (s.setRun r x).queue k' = s.queue k' := rfl
@[simp] theorem State.setRun_porter (r : RunRef) (x : Option Run) (k' p' : Nat) : (s.setRun r x).porter k' p' = s.porter k' p' := rfl
@[simp] theorem State.setRun_chan (r : RunRef) (x : Option Run) (c' : Nat) : (s.setRun r x).chan c' = s.chan c' := rfl
@[simp] theorem State.setRun_chCfg (r : RunRef) (x : Option Run) (c' : Nat) : (s.setRun r x).chCfg c' = s.chCfg c' := rfl
@[simp] theorem State.setRun_region (r : RunRef) (x : Option Run) (n' : Nat) : (s.setRun r x).region n' = s.region n' := rfl
@[simp] theorem State.setRun_crfClass (r : RunRef) (x : Option Run) (c' : Nat) : (s.setRun r x).crfClass c' = s.crfClass c' := rfl
@[simp] theorem State.setRun_loopb (r : RunRef) (x : Option Run) (n' : Nat) : (s.setRun r x).loopb n' = s.loopb n' := rfl
@[simp] theorem State.setRun_dloop (r : RunRef) (x : Option Run) (k' : Nat) : (s.setRun r x).dloop k' = s.dloop k' := rfl
@[simp] theorem State.setRun_gbRange (r : RunRef) (x : Option Run) (k' : Nat) : (s.setRun r x).gbRange k' = s.gbRange k' := rfl
@[simp] theorem State.setRun_curve (r : RunRef) (x : Option Run) (k' st' : Nat) : (s.setRun r x).curve k' st' = s.curve k' st' := rfl
@[simp] theorem State.setRun_keyWindow (r : RunRef) (x : Option Run) (w' : Nat) : (s.setRun r x).keyWindow w' = s.keyWindow w' := rfl
@[simp] theorem State.setRun_levels (r : RunRef) (x : Option Run) (a' : Nat) : (s.setRun r x).levels a' = s.levels a' := rfl
@[simp] theorem State.setRun_ranks (r : RunRef) (x : Option Run) (a' : Nat) : (s.setRun r x).ranks a' = s.ranks a' := rfl
@[simp] theorem State.setRun_storeWord (r : RunRef) (x : Option Run) (i' : Nat) : (s.setRun r x).storeWord i' = s.storeWord i' := rfl

/-! ### draw -/

@[simp] theorem State.draw_hp : (s.draw).hp = s.hp := rfl
@[simp] theorem State.draw_ep : (s.draw).ep = s.ep := rfl
@[simp] theorem State.draw_tg : (s.draw).tg = s.tg := rfl
@[simp] theorem State.draw_lt : (s.draw).lt = s.lt := rfl
@[simp] theorem State.draw_wf : (s.draw).wf = s.wf := rfl
@[simp] theorem State.draw_mi : (s.draw).mi = s.mi := rfl
@[simp] theorem State.draw_lg : (s.draw).lg = s.lg := rfl
@[simp] theorem State.draw_pa : (s.draw).pa = s.pa := rfl
@[simp] theorem State.draw_st : (s.draw).st = s.st := rfl
@[simp] theorem State.draw_ab : (s.draw).ab = s.ab := rfl
@[simp] theorem State.draw_rn : (s.draw).rn = s.rn := rfl
@[simp] theorem State.draw_cf : (s.draw).cf = s.cf := rfl
@[simp] theorem State.draw_fm : (s.draw).fm = s.fm := rfl
@[simp] theorem State.draw_cu : (s.draw).cu = s.cu := rfl
@[simp] theorem State.draw_er : (s.draw).er = s.er := rfl
@[simp] theorem State.draw_np : (s.draw).np = s.np := rfl
@[simp] theorem State.draw_ts : (s.draw).ts = s.ts := rfl
@[simp] theorem State.draw_gb : (s.draw).gb = s.gb := rfl
@[simp] theorem State.draw_gl : (s.draw).gl = s.gl := rfl
@[simp] theorem State.draw_blocked : (s.draw).blocked = s.blocked := rfl
@[simp] theorem State.draw_pending : (s.draw).pending = s.pending := rfl

@[simp] theorem State.draw_entry (e : Nat) : s.draw.entry e = s.entry e := rfl
@[simp] theorem State.draw_side (e : Nat) : s.draw.side e = s.side e := rfl
@[simp] theorem State.draw_dlist (b : Nat) : s.draw.dlist b = s.dlist b := rfl
@[simp] theorem State.draw_ctx (c : Nat) : s.draw.ctx c = s.ctx c := rfl
@[simp] theorem State.draw_ctxLock (c : Nat) : s.draw.ctxLock c = s.ctxLock c := rfl
@[simp] theorem State.draw_ctxWait (c : Nat) : s.draw.ctxWait c = s.ctxWait c := rfl
@[simp] theorem State.draw_target (t : Nat) : s.draw.target t = s.target t := rfl
@[simp] theorem State.draw_group (g : Nat) : s.draw.group g = s.group g := rfl
@[simp] theorem State.draw_visitor (v : Nat) : s.draw.visitor v = s.visitor v := rfl
@[simp] theorem State.draw_fn (f : Nat) : s.draw.fn f = s.fn f := rfl
@[simp] theorem State.draw_port (n : Nat) : s.draw.port n = s.port n := rfl
@[simp] theorem State.draw_peer (b : Nat) : s.draw.peer b = s.peer b := rfl
@[simp] theorem State.draw_queue (k : Nat) : s.draw.queue k = s.queue k := rfl
@[simp] theorem State.draw_porter (k p : Nat) : s.draw.porter k p = s.porter k p := rfl
@[simp] theorem State.draw_chan (c : Nat) : s.draw.chan c = s.chan c := rfl
@[simp] theorem State.draw_chCfg (c : Nat) : s.draw.chCfg c = s.chCfg c := rfl
@[simp] theorem State.draw_region (n : Nat) : s.draw.region n = s.region n := rfl
@[simp] theorem State.draw_crfClass (c : Nat) : s.draw.crfClass c = s.crfClass c := rfl
@[simp] theorem State.draw_loopb (n : Nat) : s.draw.loopb n = s.loopb n := rfl
@[simp] theorem State.draw_dloop (k : Nat) : s.draw.dloop k = s.dloop k := rfl
@[simp] theorem State.draw_gbRange (k : Nat) : s.draw.gbRange k = s.gbRange k := rfl
@[simp] theorem State.draw_curve (k st : Nat) : s.draw.curve k st = s.curve k st := rfl
@[simp] theorem State.draw_keyWindow (w : Nat) : s.draw.keyWindow w = s.keyWindow w := rfl
@[simp] theorem State.draw_levels (a : Nat) : s.draw.levels a = s.levels a := rfl
@[simp] theorem State.draw_ranks (a : Nat) : s.draw.ranks a = s.ranks a := rfl
@[simp] theorem State.draw_storeWord (i : Nat) : s.draw.storeWord i = s.storeWord i := rfl
@[simp] theorem State.draw_run (r : RunRef) : s.draw.run r = s.run r := rfl

/-! ### A read of the key written gives the value written, one of another key what it gave before -/

theorem State.setEntry_entry (h : s.Canonical) (i k : Nat) (v : Entry) :
    (s.setEntry i v).entry k = if k = i then v else s.entry k := tget_tset h.entries ..
theorem State.modSide_side (h : s.Canonical) (i k : Nat) (f : Side → Side) :
    (s.modSide i f).side k = if k = i then f (s.side k) else s.side k := tget_tmod h.side ..
theorem State.modDlist_dlist (h : s.Canonical) (i k : Nat) (f : List Nat → List Nat) :
    (s.modDlist i f).dlist k = if k = i then f (s.dlist k) else s.dlist k := tget_tmod h.dispatch ..
theorem State.setCtx_ctx (h : s.Canonical) (i k : Nat) (v : Ctx) :
    (s.setCtx i v).ctx k = if k = i then v else s.ctx k := tget_tset h.ctxs ..
theorem State.setCtxLock_ctxLock (h : s.Canonical) (i k : Nat) (v : Option RunRef) :
    (s.setCtxLock i v).ctxLock k = if k = i then v else s.ctxLock k := tget_tset h.locks ..
theorem State.modTarget_target (h : s.Canonical) (i k : Nat) (f : Target → Target) :
    (s.modTarget i f).target k = if k = i then f (s.target k) else s.target k := tget_tmod h.targets ..
theorem State.modGroup_group (h : s.Canonical) (i k : Nat) (f : Group → Group) :
    (s.modGroup i f).group k = if k = i then f (s.group k) else s.group k := tget_tmod h.groups ..
theorem State.setVisitor_visitor (h : s.Canonical) (i k : Nat) (v : Option Visitor) :
    (s.setVisitor i v).visitor k = if k = i then v else s.visitor k := tget_tset h.visitors ..
theorem State.modFn_fn (h : s.Canonical) (i k : Nat) (f : Fn → Fn) :
    (s.modFn i f).fn k = if k = i then f (s.fn k) else s.fn k := tget_tmod h.fns ..
theorem State.modPort_port (h : s.Canonical) (i k : Nat) (f : Port → Port) :
    (s.modPort i f).port k = if k = i then f (s.port k) else s.port k := tget_tmod h.ports ..
theorem State.modPeer_peer (h : s.Canonical) (i k : Nat) (f : Peer → Peer) :
    (s.modPeer i f).peer k = if k = i then f (s.peer k) else s.peer k := tget_tmod h.peers ..
theorem State.modQueue_queue (h : s.Canonical) (i k : Nat) (f : RunQueue → RunQueue) :
    (s.modQueue i f).queue k = if k = i then f (s.queue k) else s.queue k := tget_tmod h.queues ..
theorem State.modChan_chan (h : s.Canonical) (i k : Nat) (f : Channel → Channel) :
    (s.modChan i f).chan k = if k = i then f (s.chan k) else s.chan k := tget_tmod h.channels ..
theorem State.modLoop_loopb (h : s.Canonical) (i k : Nat) (f : Loopback → Loopback) :
    (s.modLoop i f).loopb k = if k = i then f (s.loopb k) else s.loopb k := tget_tmod h.loops ..
theorem State.modDloop_dloop (h : s.Canonical) (i k : Nat) (f : DLoop → DLoop) :
    (s.modDloop i f).dloop k = if k = i then f (s.dloop k) else s.dloop k := tget_tmod h.dloops ..
theorem State.modPorter_porter (h : s.Canonical) (k p j q : Nat) (f : Porter → Porter) :
    (s.modPorter k p f).porter j q = if 5 * j + q = 5 * k + p then f (s.porter j q) else s.porter j q := tget_tmod h.porters ..

/-- The numbers of run contexts that exist differ (05 R103). -/
theorem runKey_inj {r q : RunRef} (hr : r.porter.toNat < 5) (hq : q.porter.toNat < 5) (h : runKey r = runKey q) : r = q := by
  obtain ⟨a, b, c⟩ := r
  obtain ⟨x, y, z⟩ := q
  simp only [runKey] at h hr hq
  have hc := c.isLt
  have hz := z.isLt
  have ha := a.isLt
  have hx := x.isLt
  congr 1 <;> apply BitVec.eq_of_toNat_eq <;> omega

theorem State.setRun_run_self (h : s.Canonical) (r : RunRef) (x : Option Run) : (s.setRun r x).run r = x :=
  tget_tset_self h.runs ..

theorem State.setRun_run_other (h : s.Canonical) {r q : RunRef} (hr : r.porter.toNat < 5) (hq : q.porter.toNat < 5) (hrq : q ≠ r)
    (x : Option Run) : (s.setRun r x).run q = s.run q :=
  tget_tset_other h.runs (fun e => hrq (runKey_inj hq hr e)) _

/-! ### Every named write keeps every table canonical -/

theorem State.Canonical.setEntry (h : s.Canonical) (i : Nat) (v : Entry) : (s.setEntry i v).Canonical :=
  { h with entries := twf_tset h.entries .. }
theorem State.Canonical.modSide (h : s.Canonical) (i : Nat) (f : Side → Side) : (s.modSide i f).Canonical :=
  { h with side := twf_tmod h.side .. }
theorem State.Canonical.modDlist (h : s.Canonical) (i : Nat) (f : List Nat → List Nat) : (s.modDlist i f).Canonical :=
  { h with dispatch := twf_tmod h.dispatch .. }
theorem State.Canonical.setCtx (h : s.Canonical) (i : Nat) (v : Ctx) : (s.setCtx i v).Canonical :=
  { h with ctxs := twf_tset h.ctxs .. }
theorem State.Canonical.setCtxLock (h : s.Canonical) (i : Nat) (v : Option RunRef) : (s.setCtxLock i v).Canonical :=
  { h with locks := twf_tset h.locks .. }
theorem State.Canonical.modTarget (h : s.Canonical) (i : Nat) (f : Target → Target) : (s.modTarget i f).Canonical :=
  { h with targets := twf_tmod h.targets .. }
theorem State.Canonical.modGroup (h : s.Canonical) (i : Nat) (f : Group → Group) : (s.modGroup i f).Canonical :=
  { h with groups := twf_tmod h.groups .. }
theorem State.Canonical.setVisitor (h : s.Canonical) (i : Nat) (v : Option Visitor) : (s.setVisitor i v).Canonical :=
  { h with visitors := twf_tset h.visitors .. }
theorem State.Canonical.modFn (h : s.Canonical) (i : Nat) (f : Fn → Fn) : (s.modFn i f).Canonical :=
  { h with fns := twf_tmod h.fns .. }
theorem State.Canonical.modPort (h : s.Canonical) (i : Nat) (f : Port → Port) : (s.modPort i f).Canonical :=
  { h with ports := twf_tmod h.ports .. }
theorem State.Canonical.modPeer (h : s.Canonical) (i : Nat) (f : Peer → Peer) : (s.modPeer i f).Canonical :=
  { h with peers := twf_tmod h.peers .. }
theorem State.Canonical.modQueue (h : s.Canonical) (i : Nat) (f : RunQueue → RunQueue) : (s.modQueue i f).Canonical :=
  { h with queues := twf_tmod h.queues .. }
theorem State.Canonical.modChan (h : s.Canonical) (i : Nat) (f : Channel → Channel) : (s.modChan i f).Canonical :=
  { h with channels := twf_tmod h.channels .. }
theorem State.Canonical.modLoop (h : s.Canonical) (i : Nat) (f : Loopback → Loopback) : (s.modLoop i f).Canonical :=
  { h with loops := twf_tmod h.loops .. }
theorem State.Canonical.modDloop (h : s.Canonical) (i : Nat) (f : DLoop → DLoop) : (s.modDloop i f).Canonical :=
  { h with dloops := twf_tmod h.dloops .. }
theorem State.Canonical.modPorter (h : s.Canonical) (k p : Nat) (f : Porter → Porter) : (s.modPorter k p f).Canonical :=
  { h with porters := twf_tmod h.porters .. }
theorem State.Canonical.setRun (h : s.Canonical) (r : RunRef) (x : Option Run) : (s.setRun r x).Canonical :=
  { h with runs := twf_tset h.runs .. }
theorem State.Canonical.draw (h : s.Canonical) : s.draw.Canonical := { h with }
theorem State.Canonical.putBytes (h : s.Canonical) (o : Nat) (bs : List Byte) : (s.putBytes o bs).Canonical := by
  refine { h with buffer := ?_ }
  show twf 0 ((bs.zipIdx).foldl (fun t p => tset 0 t (o + p.2) p.1) s.gb.buffer) = true
  have hb := h.buffer
  generalize s.gb.buffer = t at hb
  generalize bs.zipIdx = l
  induction l generalizing t with
  | nil => exact hb
  | cons p l ih => exact ih _ (twf_tset hb ..)

/-- A fold of changes that each keep every table canonical does so too. -/
theorem State.Canonical.foldl {β : Type} {f : State → β → State} (hf : ∀ s b, s.Canonical → (f s b).Canonical) (l : List β)
    (h : s.Canonical) : (l.foldl f s).Canonical := by
  induction l generalizing s with
  | nil => exact h
  | cons b l ih => exact ih (hf s b h)

end Sys2Proof.Machine
end

