-- ==== Sys2Proof/Laws/Ops.lean ====
section
/-! SUPPORT. What the shared operations of the commands can do: what follows a change, how an access of the host port is answered, and
the frame that every Lequin instruction stands in. -/
namespace Sys2Proof.Machine

variable {s t old : State}

/-! ### What follows a change -/

theorem noteQuiet_none (h : s.stillFns = []) : s.stillFns.foldl (fun s f => s.noteQuiet f) s = s := by rw [h]; rfl

theorem State.payGap_none (h : s.gb.gapDue = none) : s.payGap = s := by simp only [State.payGap, h]

theorem noteDirty_none (h : s.fm.mig = none) : noteDirty old s = s := by simp only [noteDirty, h]

/-- Nothing is noted of a change to a state in which no function's QUIET is watched, no GAP record owes a post and no migration notes changes. -/
theorem noted_eq (hs : s.stillFns = []) (hg : s.gb.gapDue = none) (hm : s.fm.mig = none) : noted old s = s := by
  simp only [noted, noteQuiet_none hs, State.payGap_none hg, noteDirty_none hm]

theorem mirrored_off (h : old.mirrorOn = false) : mirrored old s = false := by simp [mirrored, h]

/-- Nothing else follows such a change where the partner receives none. -/
theorem fin_eq (hs : s.stillFns = []) (hg : s.gb.gapDue = none) (hm : s.fm.mig = none) (hp : old.mirrorOn = false) (c : Instr) :
    fin old c s = s := by
  simp [fin, noted_eq hs hg hm, mirrored_off hp]

theorem finNow_eq (hs : s.stillFns = []) (hg : s.gb.gapDue = none) (hm : s.fm.mig = none) (hp : old.mirrorOn = false) :
    finNow old s = s := by
  simp [finNow, noted_eq hs hg hm, mirrored_off hp]

/-- The same where the change left the parts that are under watch as they were. -/
theorem State.Calm.fin_eq (h : old.Calm) (hf : s.fm = old.fm) (hg : s.gb.gapDue = old.gb.gapDue) (c : Instr) : fin old c s = s :=
  Machine.fin_eq (by rw [State.stillFns, hf]; exact h.still) (hg.trans h.gap) (by rw [hf]; exact h.mig) h.pair c

theorem State.replay_none (h : s.blocked = []) : s.replay = s := by simp [State.replay, h]

/-- Where no entry waits for a room, none is sent. -/
theorem State.sendDue_none (h : ∀ b, (s.peer b).waiting = []) : s.sendDue = s := by
  have : ∀ l : List Nat, l.foldl (fun s b => if (s.peer b).waiting = [] then s else s.sendWaiting b) s = s := by
    intro l
    induction l with
    | nil => rfl
    | cons b l ih => rw [List.foldl_cons, if_pos (h b)]; exact ih
  exact this _

/-- Where nothing waits, nothing more happens when access groups end. -/
theorem State.NoneWaits.after (h : s.NoneWaits) : s.after = s := by
  simp [State.after, h.settled, h.homed, State.sendDue_none h.roomed, State.replay_none h.blocked]

theorem freed_off (h : old.mirrorOn = false) : State.freed old s = s := by simp [State.freed, h]

/-! ### The commands' frames -/

theorem coreCmd_live (hl : s.live = true) {c : Instr} (hc : c.wf = true) (f : State → State) : coreCmd c s f = fin s c (f s) := by
  simp [coreCmd, hl, hc]

theorem coreCmd_dead (hl : s.live = false) (c : Instr) (f : State → State) : coreCmd c s f = s := by simp [coreCmd, hl]

theorem coreCmd_ill {c : Instr} (hc : c.wf = false) (f : State → State) : coreCmd c s f = s := by simp [coreCmd, hc]

theorem portCmd_up (hl : s.portUp = true) {c : Instr} (hc : c.wf = true) (f : State → State) : portCmd c s f = fin s c (f s) := by
  simp [portCmd, hl, hc]

theorem portCmd_down (hl : s.portUp = false) (c : Instr) (f : State → State) : portCmd c s f = s := by simp [portCmd, hl]

theorem coreEnd_live (hl : s.live = true) {c : Instr} (hc : c.wf = true) (f : State → State) :
    coreEnd c s f = (fin s c (f s)).after := by simp [coreEnd, hl, hc]

theorem portEnd_up (hl : s.portUp = true) {c : Instr} (hc : c.wf = true) (f : State → State) :
    portEnd c s f = (fin s c (f s)).after := by simp [portEnd, hl, hc]

/-- The parts of a running block. -/
theorem State.live_iff : s.live = true ↔
    s.ready = true ∧ s.awake = true ∧ s.np.zRun = false ∧ s.np.zHold = false := by
  simp only [State.live, Bool.and_eq_true, Bool.not_eq_true', and_assoc]

theorem State.LetIn.open {h : HpAttr} (hl : s.LetIn h) : s.portShut = false := by
  simp [State.portShut, hl.porst, (State.live_iff.1 hl.live).2.1]

/-- A write that the running block lets in takes its slot. -/
theorem hostEntry_let {h : HpAttr} (hl : s.LetIn h) {c : Instr} (hc : c.wf = true) (hb : rowBeats c = []) (glb : Bool)
    (f : State → State) : hostEntry c h glb s f = f (s.seat h) := by
  obtain ⟨hr, -, hz, hh⟩ := State.live_iff.1 hl.live
  simp [hostEntry, hl.open, hl.room, hc, hb, hz, hh, hr, State.seat]

/-- A write that nothing keeps back has its effect. -/
theorem hostAccess_let {h : HpAttr} (hl : s.LetIn h) {c : Instr} (hc : c.wf = true) (hb : rowBeats c = []) (hw : s.blocked = [])
    (glb : Bool) (f : State → State) : hostAccess c h glb s f = fin (s.seat h) c (f (s.seat h)) := by
  have hn : (s.seat h).behind c = false := by
    have : (s.seat h).blocked = [] := by
      rw [← hw]; unfold State.seat State.takeSlot
      split
      · rfl
      · split <;> rfl
    unfold State.behind; split <;> simp [this]
  rw [hostAccess, hostEntry_let hl hc hb, hn]; rfl

theorem hostCmd_let {h : HpAttr} (hl : s.LetIn h) {c : Instr} (hc : c.wf = true) (hb : rowBeats c = []) (hw : s.blocked = [])
    (f : State → State) : hostCmd c h s f = fin (s.seat h) c (f (s.seat h)) := hostAccess_let hl hc hb hw false f

/-- A page in service answers for itself (09 R213). -/
theorem pageAccess_in {h : HpAttr} {fn : BitVec 10} (hs : s.InService fn) (w : Bool) (f : State → State) :
    pageAccess s h fn w f = f s := by simp [pageAccess, hs.2]

/-! ### The host port's part of State -/

/-- Taking a slot changes the host port's slots alone. -/
theorem State.takeSlot_eq (h : HpAttr) (n : Nat) (b : Bool) :
    s.takeSlot h n b = { s with hp := { s.hp with slots := (s.takeSlot h n b).hp.slots } } := by
  unfold State.takeSlot
  split
  · rfl
  · split <;> rfl

theorem State.seat_eq (h : HpAttr) : s.seat h = { s with hp := { s.hp with slots := (s.seat h).hp.slots } } := s.takeSlot_eq h 0 true

/-- A response changes the host port alone. -/
theorem State.respond_eq (h : HpAttr) (code : Code) (d : List Word) :
    s.respond h code d = { s with hp := (s.respond h code d).hp } := rfl

theorem State.respond_hp (h : HpAttr) (code : Code) (d : List Word) :
    (s.respond h code d).hp.responses = s.hp.responses ++ [⟨h.id, code, if code = .ok then d else d.map fun _ => 0⟩] := rfl

theorem State.Canonical.seat (h : s.Canonical) (a : HpAttr) : (s.seat a).Canonical := by rw [s.seat_eq a]; exact { h with }
theorem State.Canonical.respond (h : s.Canonical) (a : HpAttr) (code : Code) (d : List Word) : (s.respond a code d).Canonical :=
  { h with }
theorem State.Calm.seat (h : s.Calm) (a : HpAttr) : (s.seat a).Calm := by rw [s.seat_eq a]; exact { h with }
theorem State.Calm.respond (h : s.Calm) (a : HpAttr) (code : Code) (d : List Word) : (s.respond a code d).Calm := { h with }

/-! ### The frame of a Lequin instruction (06 R145, R152, R159) -/

variable {r : RunRef} {x : Run} {op : Nat} {f : LqFields} {c : Instr} {good : Run → Bool} {body : Run → LqOut}

/-- A context that executes nothing. -/
theorem State.lq_idle (h : s.stepping r = none) : s.lq c r op f good body = s := by simp [State.lq, h]

/-- What an instruction does once it is fetched, allowed and within the budget: its body decides. -/
theorem State.Fetches.lq (h : s.Fetches r x op f) (hg : good x = true) :
    s.lq c r op f good body =
      match body x.counted with
      | .cont z t =>
        if z.pc = 0xFFF then s.closing c (t.trapRun r z causeEncoding) else t.setRun r (some { z with pc := z.pc + 1 })
      | .goto p z t => t.setRun r (some { z with pc := p })
      | .trap cause counted => s.closing c (s.trapRun r (if counted then x.counted else x) cause)
      | .hold t => t
      | .ended t => s.closing c t := by
  have hb : ¬ x.budget ≤ x.steps := Nat.not_le.2 h.left
  have hw := h.good
  simp only [State.lq, h.runs, hw, h.word, h.live, hg, hb, Run.counted, Bool.false_eq_true, ne_eq, not_true_eq_false, if_false,
    decide_false, Bool.not_true, Bool.or_self] <;> rfl

theorem State.Fetches.lq_cont (h : s.Fetches r x op f) (hg : good x = true) {z : Run} (hb : body x.counted = .cont z t)
    (hz : z.pc ≠ 0xFFF) : s.lq c r op f good body = t.setRun r (some z.past) := by
  rw [h.lq hg, hb]; exact if_neg hz

theorem State.Fetches.lq_goto (h : s.Fetches r x op f) (hg : good x = true) {z : Run} {p : BitVec 12}
    (hb : body x.counted = .goto p z t) : s.lq c r op f good body = t.setRun r (some { z with pc := p }) := by
  rw [h.lq hg, hb]

theorem State.Fetches.lq_hold (h : s.Fetches r x op f) (hg : good x = true) (hb : body x.counted = .hold t) :
    s.lq c r op f good body = t := by rw [h.lq hg, hb]

theorem State.Fetches.lq_ended (h : s.Fetches r x op f) (hg : good x = true) (hb : body x.counted = .ended t) :
    s.lq c r op f good body = s.closing c t := by rw [h.lq hg, hb]

theorem State.Fetches.lq_trap (h : s.Fetches r x op f) (hg : good x = true) {cause : BitVec 4} {b : Bool}
    (hb : body x.counted = .trap cause b) :
    s.lq c r op f good body = s.closing c (s.trapRun r (if b then x.counted else x) cause) := by rw [h.lq hg, hb]

/-- Staging: an effect is taken where there is room for one more. -/
theorem accept_room (h : x.effects.length < 16) (t : State) (e : Effect) :
    accept x t e = .cont { x with effects := x.effects ++ [e], f := false } t := by
  simp [accept, effectRoom, Nat.not_le.2 h]

/-- An instruction that reads an item goes on with the run, the state and the item that the read gives. -/
theorem State.Reads.withItem {y : Run} {it : ReadItem} {i : Item} (h : s.Reads r x i y t it) (s0 : State)
    (k : Run → State → ReadItem → LqOut) : withItem r i s0 x s k = k y t it := by
  have := h
  unfold State.Reads at this
  simp only [Machine.withItem, this]

end Sys2Proof.Machine
end

