-- ==== Sys2Proof/Laws/Change.lean ====
section
/-! SUPPORT. What a change of a lodging entry can do: the operations of putEntry leave the table of entries and everything outside `rest`
alone, putEntry itself writes one entry, and each keeps every table canonical. -/
namespace Sys2Proof.Machine

variable {s : State}

/-! ### Named writes within what a stimulus reaches -/

@[simp] theorem State.setEntry_rest (e : Nat) (v : Entry) : (s.setEntry e v).rest = s.rest := rfl
@[simp] theorem State.modSide_rest (e : Nat) (f : Side → Side) : (s.modSide e f).rest = s.rest := rfl
@[simp] theorem State.modDlist_rest (b : Nat) (f : List Nat → List Nat) : (s.modDlist b f).rest = s.rest := rfl
@[simp] theorem State.modTarget_rest (t : Nat) (f : Target → Target) : (s.modTarget t f).rest = s.rest := rfl
@[simp] theorem State.modGroup_rest (g : Nat) (f : Group → Group) : (s.modGroup g f).rest = s.rest := rfl
@[simp] theorem State.setVisitor_rest (v : Nat) (x : Option Visitor) : (s.setVisitor v x).rest = s.rest := rfl
@[simp] theorem State.modFn_rest (f : Nat) (g : Fn → Fn) : (s.modFn f g).rest = s.rest := rfl
@[simp] theorem State.modPort_rest (n : Nat) (g : Port → Port) : (s.modPort n g).rest = s.rest := rfl
@[simp] theorem State.modPeer_rest (b : Nat) (g : Peer → Peer) : (s.modPeer b g).rest = s.rest := rfl
@[simp] theorem State.settlePostings_rest (e : Nat) : (s.settlePostings e).rest = s.rest := rfl
@[simp] theorem State.settlePostings_lt (e : Nat) : (s.settlePostings e).lt = s.lt := rfl

/-! ### The operations beside an entry -/

@[simp] theorem State.dispUpkeep_rest (was : Bool) (e : Nat) : (s.dispUpkeep was e).rest = s.rest := by
  unfold State.dispUpkeep; split <;> rfl
@[simp] theorem State.dispUpkeep_entries (was : Bool) (e : Nat) : (s.dispUpkeep was e).lt.entries = s.lt.entries := by
  unfold State.dispUpkeep; split <;> rfl
theorem State.Canonical.dispUpkeep (h : s.Canonical) (was : Bool) (e : Nat) : (s.dispUpkeep was e).Canonical := by
  unfold State.dispUpkeep; split
  · exact h.modDlist ..
  · exact (h.modDlist ..).modFn ..
  · exact h

@[simp] theorem State.setTrapped_rest (e : Nat) (v : Bool) : (s.setTrapped e v).rest = s.rest := by
  unfold State.setTrapped; cases v <;> simp only [State.dispUpkeep_rest] <;> rfl
@[simp] theorem State.setTrapped_entries (e : Nat) (v : Bool) : (s.setTrapped e v).lt.entries = s.lt.entries := by
  unfold State.setTrapped; cases v <;> simp only [State.dispUpkeep_entries] <;> rfl
theorem State.Canonical.setTrapped (h : s.Canonical) (e : Nat) (v : Bool) : (s.setTrapped e v).Canonical := by
  have hs := h.modSide e fun x => { x with trapped := v }
  cases v
  · exact State.Canonical.dispUpkeep (s := { s.modSide e (fun x => { x with trapped := false }) with
      lt.stepTraps := s.lt.stepTraps.filter (fun r => r.event.toNat ≠ e),
      lt.itinTraps := s.lt.itinTraps.filter (fun r => r.event.toNat ≠ e) }) { hs with } _ _
  · exact State.Canonical.dispUpkeep (s := (s.modSide e fun x => { x with trapped := true }).settlePostings e) { hs with } _ _

@[simp] theorem State.leaveRank_rest (t c : Nat) : (s.leaveRank t c).rest = s.rest := rfl
@[simp] theorem State.leaveRank_lt (t c : Nat) : (s.leaveRank t c).lt = s.lt := rfl

/-- A change of every peer keeps every table canonical. -/
theorem State.Canonical.mapPeers (h : s.Canonical) (f : Nat → Peer → Peer) :
    ({ s with cu.peers := tmap {} s.cu.peers f } : State).Canonical := { h with peers := twf_tmap h.peers f }

/-- A property of states that every write of unrank keeps holds after it. -/
theorem State.unrank_ind (P : State → Prop) (e : Nat) (h : P s)
    (target : ∀ (u : State) (t : Nat) (f : Target → Target), P u → P (u.modTarget t f))
    (group : ∀ (u : State) (g : Nat) (f : Group → Group), P u → P (u.modGroup g f))
    (held : ∀ (u : State) (l : List HeldPlacement), P u → P { u with rn.heldPl := l })
    (peers : ∀ (u : State) (f : Nat → Peer → Peer), P u → P { u with cu.peers := tmap {} u.cu.peers f })
    (side : ∀ (u : State) (f : Side → Side), P u → P (u.modSide e f)) : P (s.unrank e) := by
  unfold State.unrank
  extract_lets d s1 s2 s3 s4
  have h1 : P s1 := by
    show P (match d.placed with | some t => s.leaveRank t.toNat e | none => s)
    split
    · exact target _ _ _ h
    · exact h
  have h2 : P s2 := by
    show P (match d.orphan with
      | some g => s1.modGroup g.toNat fun x => { x with orphans := x.orphans.filter (· ≠ e) } | none => s1)
    split
    · exact group _ _ _ h1
    · exact h1
  exact side _ _ (peers _ _ (held _ _ h2))

@[simp] theorem State.unrank_rest (e : Nat) : (s.unrank e).rest = s.rest := by
  apply State.unrank_ind (fun u => u.rest = s.rest) <;> intros <;> first | rfl | assumption
@[simp] theorem State.unrank_entries (e : Nat) : (s.unrank e).lt.entries = s.lt.entries := by
  apply State.unrank_ind (fun u => u.lt.entries = s.lt.entries) <;> intros <;> first | rfl | assumption
theorem State.Canonical.unrank (h : s.Canonical) (e : Nat) : (s.unrank e).Canonical := by
  apply State.unrank_ind State.Canonical
  · exact h
  · intro u t f hu; exact hu.modTarget ..
  · intro u g f hu; exact hu.modGroup ..
  · intro u l hu; exact { hu with }
  · intro u f hu; exact hu.mapPeers _
  · intro u f hu; exact hu.modSide ..

@[simp] theorem State.unhold_rest (e : Nat) : (s.unhold e).rest = s.rest := by
  unfold State.unhold; split <;> rfl
@[simp] theorem State.unhold_entries (e : Nat) : (s.unhold e).lt.entries = s.lt.entries := by
  unfold State.unhold; split <;> rfl
theorem State.Canonical.unhold (h : s.Canonical) (e : Nat) : (s.unhold e).Canonical := by
  unfold State.unhold; split
  · exact (h.modTarget ..).modSide ..
  · exact h

@[simp] theorem State.curfewLeave_rest (e : Nat) : (s.curfewLeave e).rest = s.rest := rfl
@[simp] theorem State.curfewLeave_lt (e : Nat) : (s.curfewLeave e).lt = s.lt := rfl
theorem State.Canonical.curfewLeave (h : s.Canonical) (e : Nat) : (s.curfewLeave e).Canonical := { h with }

@[simp] theorem State.curfewEnter_rest (e : Nat) (c : BitVec 3) : (s.curfewEnter e c).rest = s.rest := by
  unfold State.curfewEnter; dsimp only; split
  · rfl
  · split <;> rfl
@[simp] theorem State.curfewEnter_lt (e : Nat) (c : BitVec 3) : (s.curfewEnter e c).lt = s.lt := by
  unfold State.curfewEnter; dsimp only; split
  · rfl
  · split <;> rfl
theorem State.Canonical.curfewEnter (h : s.Canonical) (e : Nat) (c : BitVec 3) : (s.curfewEnter e c).Canonical := by
  unfold State.curfewEnter; dsimp only; split
  · exact { h with }
  · split <;> exact { h with }

@[simp] theorem State.wireCopy_rest (e : Nat) (x : Entry) : (s.wireCopy e x).rest = s.rest := by
  unfold State.wireCopy; split <;> rfl
@[simp] theorem State.wireCopy_lt (e : Nat) (x : Entry) : (s.wireCopy e x).lt = s.lt := by
  unfold State.wireCopy; split <;> rfl
theorem State.Canonical.wireCopy (h : s.Canonical) (e : Nat) (x : Entry) : (s.wireCopy e x).Canonical := by
  unfold State.wireCopy; split
  · exact { h with }
  · exact h

/-! ### Slots queued for a peer -/

@[simp] theorem State.unpark_rest (n : Nat) : (s.unpark n).rest = s.rest := by unfold State.unpark; split <;> rfl
@[simp] theorem State.unpark_lt (n : Nat) : (s.unpark n).lt = s.lt := by unfold State.unpark; split <;> rfl
theorem State.Canonical.unpark (h : s.Canonical) (n : Nat) : (s.unpark n).Canonical := by
  unfold State.unpark; split
  · exact h.modPort ..
  · exact h

@[simp] theorem State.queueReq_rest (n : Nat) (x : BitVec 128) : (s.queueReq n x).rest = s.rest := by simp [State.queueReq]
@[simp] theorem State.queueReq_lt (n : Nat) (x : BitVec 128) : (s.queueReq n x).lt = s.lt := by simp [State.queueReq]
theorem State.Canonical.queueReq (h : s.Canonical) (n : Nat) (x : BitVec 128) : (s.queueReq n x).Canonical :=
  (h.modPort ..).unpark n

@[simp] theorem State.sendReq_rest (b : Nat) (x : BitVec 128) : (s.sendReq b x).rest = s.rest := by
  unfold State.sendReq; split <;> simp
@[simp] theorem State.sendReq_lt (b : Nat) (x : BitVec 128) : (s.sendReq b x).lt = s.lt := by
  unfold State.sendReq; split <;> simp
theorem State.Canonical.sendReq (h : s.Canonical) (b : Nat) (x : BitVec 128) : (s.sendReq b x).Canonical := by
  unfold State.sendReq; split
  · exact h.queueReq ..
  · exact h

@[simp] theorem State.giveBack_rest (e : Nat) : (s.giveBack e).rest = s.rest := by
  unfold State.giveBack; split
  · split <;> simp
  · rfl
@[simp] theorem State.giveBack_lt (e : Nat) : (s.giveBack e).lt = s.lt := by
  unfold State.giveBack; split
  · split <;> simp
  · rfl
theorem State.Canonical.giveBack (h : s.Canonical) (e : Nat) : (s.giveBack e).Canonical := by
  unfold State.giveBack; split
  · split
    · exact h.sendReq ..
    · exact h.modPeer ..
  · exact h

@[simp] theorem State.sendUpdate_rest (e : Nat) (p : Bool) : (s.sendUpdate e p).rest = s.rest := by
  unfold State.sendUpdate; split <;> simp
@[simp] theorem State.sendUpdate_lt (e : Nat) (p : Bool) : (s.sendUpdate e p).lt = s.lt := by
  unfold State.sendUpdate; split <;> simp
theorem State.Canonical.sendUpdate (h : s.Canonical) (e : Nat) (p : Bool) : (s.sendUpdate e p).Canonical := by
  unfold State.sendUpdate; split
  · exact h.sendReq ..
  · exact h

@[simp] theorem State.awayNote_rest (stim : Option Stim) (e : Nat) (old new : Entry) :
    (s.awayNote stim e old new).rest = s.rest := by
  unfold State.awayNote; split
  · rfl
  · split
    · simp
    · split <;> simp
@[simp] theorem State.awayNote_entries (stim : Option Stim) (e : Nat) (old new : Entry) :
    (s.awayNote stim e old new).lt.entries = s.lt.entries := by
  unfold State.awayNote; split
  · rfl
  · split
    · simp
    · split <;> simp
theorem State.Canonical.awayNote (h : s.Canonical) (stim : Option Stim) (e : Nat) (old new : Entry) :
    (s.awayNote stim e old new).Canonical := by
  unfold State.awayNote; split
  · exact h
  · split
    · exact (h.giveBack ..).modSide ..
    · split
      · exact h.sendUpdate ..
      · exact h

/-! ### The guest book -/

/-- The guest book's writes touch it alone. -/
theorem State.gbRaw_eq (r : Nat) : s.gbRaw r = { s with gb := (s.gbRaw r).gb } := by
  unfold State.gbRaw
  generalize leBytes 16 r = bs
  split
  · unfold State.gbLose; split <;> rfl
  · rfl
theorem State.gbGapRec_eq (w : BitVec 2) : s.gbGapRec w = { s with gb := (s.gbGapRec w).gb } := by
  unfold State.gbGapRec; rw [State.gbRaw_eq]
theorem State.gbGap_eq : s.gbGap = { s with gb := s.gbGap.gb } := by
  unfold State.gbGap; split
  · rfl
  · rw [State.gbGapRec_eq]
theorem State.gbTime_eq : s.gbTime = { s with gb := s.gbTime.gb } := by
  unfold State.gbTime; split
  · rfl
  · rw [State.gbRaw_eq]
theorem State.gbPut_eq (r : Nat) : s.gbPut r = { s with gb := (s.gbPut r).gb } := by
  unfold State.gbPut
  split
  · rfl
  · split
    · unfold State.gbLose; split <;> rfl
    · split
      · unfold State.gbLose; split <;> rfl
      · rw [State.gbRaw_eq, State.gbGap_eq, State.gbTime_eq]
theorem State.gbState_eq (e : Nat) (old new : Entry) (stim tgt : Nat) :
    s.gbState e old new stim tgt = { s with gb := (s.gbState e old new stim tgt).gb } := by
  unfold State.gbState; split
  · rw [State.gbPut_eq]
  · rfl

/-- While the guest book is off nothing is written to it. -/
theorem State.gbState_off (h : s.gb.enable = false) (e : Nat) (old new : Entry) (stim tgt : Nat) :
    s.gbState e old new stim tgt = s := by simp [State.gbState, State.gbTraces, h]

@[simp] theorem State.gbState_rest (e : Nat) (old new : Entry) (stim tgt : Nat) :
    (s.gbState e old new stim tgt).rest = s.rest := by rw [State.gbState_eq]; rfl
@[simp] theorem State.gbState_lt (e : Nat) (old new : Entry) (stim tgt : Nat) :
    (s.gbState e old new stim tgt).lt = s.lt := by rw [State.gbState_eq]

/-- A change of the guest book keeps every table canonical if it keeps its own two so. -/
theorem State.Canonical.setGb (h : s.Canonical) (g : GuestBook) (hr : twf {} g.ranges = true) (hb : twf 0 g.buffer = true) :
    ({ s with gb := g } : State).Canonical := { h with ranges := hr, buffer := hb }

theorem State.Canonical.gbRaw (h : s.Canonical) (r : Nat) : (s.gbRaw r).Canonical := by
  unfold State.gbRaw
  generalize leBytes 16 r = bs
  split
  · unfold State.gbLose; split <;> exact { h with }
  · have hp := h.putBytes (16 * (s.gb.prod.toNat % 16384)) bs
    generalize s.putBytes (16 * (s.gb.prod.toNat % 16384)) bs = u at hp
    exact { hp with }
theorem State.Canonical.gbGapRec (h : s.Canonical) (w : BitVec 2) : (s.gbGapRec w).Canonical :=
  (h.setGb { s.gb with pending := 0, pendWhy := 0, gapDue := some s.gb.pending } h.ranges h.buffer).gbRaw _
theorem State.Canonical.gbGap (h : s.Canonical) : s.gbGap.Canonical := by
  unfold State.gbGap; split
  · exact h
  · exact h.gbGapRec _
theorem State.Canonical.gbTime (h : s.Canonical) : s.gbTime.Canonical := by
  unfold State.gbTime; split
  · exact h
  · exact (h.setGb { s.gb with lastTime := some (fld s.now 32 16) } h.ranges h.buffer).gbRaw _
theorem State.Canonical.gbPut (h : s.Canonical) (r : Nat) : (s.gbPut r).Canonical := by
  unfold State.gbPut
  split
  · exact h
  · split
    · unfold State.gbLose; split <;> exact { h with }
    · split
      · unfold State.gbLose; split <;> exact { h with }
      · exact h.gbTime.gbGap.gbRaw _
theorem State.Canonical.gbState (h : s.Canonical) (e : Nat) (old new : Entry) (stim tgt : Nat) :
    (s.gbState e old new stim tgt).Canonical := by
  unfold State.gbState; split
  · exact h.gbPut _
  · exact h

/-! ### putEntry -/

/-- A property of states that every operation of putEntry keeps, and that installing the entry gives, holds after putEntry. -/
theorem State.putEntry_ind (P : State → Prop) (stim : Option Stim) (tgt e : Nat) (x : Entry)
    (h0 : P (s.setEntry e { x with
      version := if stim = some .uncorrectable then 0 else (s.entry e).version + 1,
      run := x.run && x.state = .posted,
      merges := if x.state = .idle then 0 else x.merges }))
    (side : ∀ (u : State) (f : Side → Side), P u → P (u.modSide e f)) (trapped : ∀ u : State, P u → P (u.setTrapped e false))
    (disp : ∀ (u : State) (b : Bool), P u → P (u.dispUpkeep b e)) (post : ∀ u : State, P u → P (u.settlePostings e))
    (unrank : ∀ u : State, P u → P (u.unrank e)) (target : ∀ (u : State) (t : Nat) (f : Target → Target), P u → P (u.modTarget t f))
    (unhold : ∀ u : State, P u → P (u.unhold e)) (leave : ∀ u : State, P u → P (u.curfewLeave e))
    (enter : ∀ (u : State) (c : BitVec 3), P u → P (u.curfewEnter e c)) (wire : ∀ (u : State) (y : Entry), P u → P (u.wireCopy e y))
    (away : ∀ (u : State) (old new : Entry), P u → P (u.awayNote stim e old new))
    (book : ∀ (u : State) (old new : Entry) (n : Nat), P u → P (u.gbState e old new n tgt)) : P (s.putEntry stim tgt e x) := by
  have ite : ∀ (c : Bool) (u v : State), P u → P v → P (if c = true then u else v) := by
    intro c u v hu hv; cases c <;> simpa
  unfold State.putEntry
  extract_lets old was new s1 s2 s3 s4 s5 s6 s7 s8 s9 s10 s11 s12
  have h1 : P s1 := h0
  have h2 : P s2 := ite _ _ _ (trapped _ h1) h1
  have h3 : P s3 := disp _ _ h2
  have h4 : P s4 := ite _ _ _ (post _ h3) h3
  have h5 : P s5 := ite _ _ _ (unrank _ h4) h4
  have h6 : P s6 := ite _ _ _ (by split; exact target _ _ _ h5; exact h5) h5
  have h7 : P s7 := ite _ _ _ (unhold _ h6) h6
  have h8 : P s8 := ite _ _ _ (leave _ h7) h7
  have h9 : P s9 := ite _ _ _ (enter _ _ h8) h8
  have h10 : P s10 := wire _ _ h9
  have h11 : P s11 := away _ _ _ h10
  have h12 : P s12 := ite _ _ _ (side _ _ h11) h11
  split
  · exact book _ _ _ _ h12
  · exact h12

/-- putEntry changes nothing outside what a stimulus of an entry reaches. -/
@[simp] theorem State.putEntry_rest (stim : Option Stim) (tgt e : Nat) (x : Entry) : (s.putEntry stim tgt e x).rest = s.rest := by
  apply State.putEntry_ind (fun u => u.rest = s.rest) <;> intros <;> simp_all

/-- putEntry writes its entry, with VERSION one more, and no other. -/
theorem State.putEntry_entries (stim : Option Stim) (hs : stim ≠ some .uncorrectable) (tgt e : Nat) (x : Entry) :
    (s.putEntry stim tgt e x).lt.entries = tset {} s.lt.entries e ((s.entry e).next x) := by
  apply State.putEntry_ind (fun u => u.lt.entries = tset {} s.lt.entries e ((s.entry e).next x)) <;> intros <;>
    simp_all [State.setEntry, Entry.next]

/-- putEntry of a stimulus makes the change EntryTakes speaks of. -/
theorem State.putEntry_takes (stim : Option Stim) (hs : stim ≠ some .uncorrectable) (tgt e : Nat) (x : Entry) :
    s.EntryTakes (s.putEntry stim tgt e x) e x := s.putEntry_entries stim hs tgt e x

/-- putEntry keeps every table canonical. -/
theorem State.Canonical.putEntry (h : s.Canonical) (stim : Option Stim) (tgt e : Nat) (x : Entry) :
    (s.putEntry stim tgt e x).Canonical := by
  apply State.putEntry_ind State.Canonical
  · exact h.setEntry ..
  · intro u f hu; exact hu.modSide ..
  · intro u hu; exact hu.setTrapped ..
  · intro u b hu; exact hu.dispUpkeep ..
  · intro u hu; exact { hu with }
  · intro u hu; exact hu.unrank ..
  · intro u t f hu; exact hu.modTarget ..
  · intro u hu; exact hu.unhold ..
  · intro u hu; exact hu.curfewLeave ..
  · intro u c hu; exact hu.curfewEnter ..
  · intro u y hu; exact hu.wireCopy ..
  · intro u a b hu; exact hu.awayNote ..
  · intro u a b n hu; exact hu.gbState ..

end Sys2Proof.Machine
end

