-- ==== Sys2Proof/Laws/Post.lean ====
section
/-! SUPPORT. What the stimuli of an entry can do: each leaves everything outside `rest` alone and keeps every table canonical. -/
namespace Sys2Proof.Machine

/-- A change from s to t that touches only what a stimulus of an entry reaches, and keeps every table canonical. -/
structure State.Keeps (s t : State) : Prop where
  rest  : t.rest = s.rest
  canon : s.Canonical → t.Canonical

variable {s t u : State}

theorem State.Keeps.refl (s : State) : s.Keeps s := ⟨rfl, id⟩
theorem State.Keeps.trans (h : s.Keeps t) (k : t.Keeps u) : s.Keeps u := ⟨k.rest.trans h.rest, fun c => k.canon (h.canon c)⟩

theorem State.Keeps.foldl {β : Type} {f : State → β → State} (hf : ∀ (u : State) (b : β), u.Keeps (f u b)) (l : List β) : s.Keeps (l.foldl f s) := by
  induction l generalizing s with
  | nil => exact .refl s
  | cons b l ih => exact (hf s b).trans ih

theorem State.Keeps.iter {f : State → State} (hf : ∀ u : State, u.Keeps (f u)) (n : Nat) : s.Keeps (Machine.iter f n s) := by
  induction n generalizing s with
  | zero => exact .refl s
  | succ n ih => exact (hf s).trans ih

theorem State.modSide_keeps (e : Nat) (f : Side → Side) : s.Keeps (s.modSide e f) := ⟨rfl, fun h => h.modSide ..⟩
theorem State.modTarget_keeps (i : Nat) (f : Target → Target) : s.Keeps (s.modTarget i f) := ⟨rfl, fun h => h.modTarget ..⟩
theorem State.modGroup_keeps (i : Nat) (f : Group → Group) : s.Keeps (s.modGroup i f) := ⟨rfl, fun h => h.modGroup ..⟩
theorem State.setVisitor_keeps (v : Nat) (x : Option Visitor) : s.Keeps (s.setVisitor v x) := ⟨rfl, fun h => h.setVisitor ..⟩
theorem State.modPeer_keeps (b : Nat) (f : Peer → Peer) : s.Keeps (s.modPeer b f) := ⟨rfl, fun h => h.modPeer ..⟩
theorem State.sendReq_keeps (b : Nat) (x : BitVec 128) : s.Keeps (s.sendReq b x) := ⟨s.sendReq_rest b x, fun h => h.sendReq b x⟩
theorem State.sendUpdate_keeps (e : Nat) (p : Bool) : s.Keeps (s.sendUpdate e p) := ⟨s.sendUpdate_rest e p, fun h => h.sendUpdate e p⟩
theorem State.unrank_keeps (e : Nat) : s.Keeps (s.unrank e) := ⟨s.unrank_rest e, fun h => h.unrank e⟩
theorem State.putEntry_keeps (st : Option Stim) (i e : Nat) (x : Entry) : s.Keeps (s.putEntry st i e x) :=
  ⟨s.putEntry_rest st i e x, fun h => h.putEntry st i e x⟩
theorem State.order_keeps (c : Nat) :
    s.Keeps { s with rn.orders := tset 0 s.rn.orders c s.rn.nextOrd, rn.nextOrd := s.rn.nextOrd + 1 } :=
  ⟨rfl, fun h => { h with orders := twf_tset h.orders .. }⟩
theorem State.heldPl_keeps (l : List HeldPlacement) : s.Keeps { s with rn.heldPl := l } := ⟨rfl, fun h => { h with }⟩
theorem State.countDisplace_keeps : s.Keeps s.countDisplace := ⟨rfl, fun h => { h with }⟩
theorem State.report_keeps (v : Visitor) (n : Nat) : s.Keeps (s.report v n) := by
  unfold State.report
  dsimp only
  split
  · exact (State.modPeer_keeps ..).trans ⟨State.unpark_rest _, fun h => h.unpark _⟩
  · exact State.modPeer_keeps ..

/-! ### Ranking (03 R53 to R60) -/

theorem State.frontInsert_keeps (i c : Nat) : s.Keeps (s.frontInsert i c) := State.modTarget_keeps ..

theorem State.promoteOne_keeps (i : Nat) : s.Keeps (s.promoteOne i) := by
  unfold State.promoteOne
  dsimp only
  split
  · exact .refl s
  · split
    · exact (State.modTarget_keeps ..).trans (State.frontInsert_keeps ..)
    · exact .refl s

theorem State.fillFront_keeps (i : Nat) : s.Keeps (s.fillFront i) := by
  unfold State.fillFront
  split
  · exact .refl s
  · exact .iter (fun u => u.promoteOne_keeps i) 32

theorem State.rankInsert_keeps (i c : Nat) : s.Keeps (s.rankInsert i c) := by
  unfold State.rankInsert
  dsimp only
  split
  · exact State.frontInsert_keeps ..
  · split
    · split
      · exact ((State.modTarget_keeps ..).trans (State.frontInsert_keeps ..)).trans (State.modTarget_keeps ..)
      · exact State.modTarget_keeps ..
    · exact State.frontInsert_keeps ..

theorem State.offerTo_keeps (i c : Nat) : s.Keeps (s.offerTo i c) := by
  unfold State.offerTo
  extract_lets s1
  have h1 : s.Keeps s1 := State.modTarget_keeps ..
  split
  · exact h1.trans (State.putEntry_keeps ..)
  · split
    · exact (h1.trans (State.setVisitor_keeps ..)).trans (State.report_keeps ..)
    · exact h1

theorem State.withdraw_keeps (i c : Nat) : s.Keeps (s.withdraw i c) := by
  unfold State.withdraw
  extract_lets s1
  have h1 : s.Keeps s1 := State.modTarget_keeps ..
  split
  · exact h1.trans (State.putEntry_keeps ..)
  · split
    · exact (h1.trans (State.setVisitor_keeps ..)).trans (State.report_keeps ..)
    · exact h1

theorem State.oweSettle_keeps (i : Nat) : s.Keeps (s.oweSettle i) := by
  unfold State.oweSettle
  split
  · exact .refl s
  · exact ⟨rfl, fun h => { h with }⟩

theorem State.reofferAt_keeps (i : Nat) : s.Keeps (s.reofferAt i) := by
  unfold State.reofferAt
  split
  · split
    · exact State.offerTo_keeps ..
    · exact .refl _
  · split
    · exact (State.withdraw_keeps ..).trans State.countDisplace_keeps
    · split
      · exact .refl _
      · split
        · split
          · exact .refl _
          · exact ((State.withdraw_keeps ..).trans (State.offerTo_keeps ..)).trans State.countDisplace_keeps
        · exact (State.withdraw_keeps ..).trans State.countDisplace_keeps

theorem State.settle_keeps (i : Nat) : s.Keeps (s.settle i) := by
  unfold State.settle
  extract_lets s1
  refine (s.fillFront_keeps i).trans ?_
  split
  · exact State.oweSettle_keeps _
  · exact State.reofferAt_keeps _

theorem State.settleO_keeps (o : Option (BitVec 8)) : s.Keeps (s.settleO o) := by
  cases o with
  | none => exact .refl s
  | some i => exact s.settle_keeps _

/-- A change of an entry with the offers it touches settled. -/
theorem State.apply_keeps (st : Option Stim) (i e : Nat) (x : Entry) : s.Keeps (s.apply st i e x) :=
  ((State.putEntry_keeps ..).trans (State.settleO_keeps _)).trans (State.settleO_keeps _)

theorem State.placeAt_keeps (i c : Nat) : s.Keeps (s.placeAt i c) := by
  unfold State.placeAt
  extract_lets src s1 s2
  have h1 : s.Keeps s1 := s.order_keeps c
  have h2 : s1.Keeps s2 := by
    show s1.Keeps (if c < nEntries then s1.modSide c _ else s1)
    split
    · exact State.modSide_keeps ..
    · exact .refl _
  exact ((h1.trans h2).trans (State.rankInsert_keeps ..)).trans (State.settle_keeps _)

theorem State.sendPlace_keeps (e b r : Nat) : s.Keeps (s.sendPlace e b r) :=
  ((State.modPeer_keeps ..).trans (State.modSide_keeps ..)).trans (State.sendReq_keeps ..)

theorem State.floorRaise_keeps (e : Nat) : s.Keeps (s.floorRaise e) := by
  unfold State.floorRaise
  dsimp only
  split
  · exact State.putEntry_keeps ..
  · exact .refl s

theorem State.place_keeps (e : Nat) (away : Option Nat) : s.Keeps (s.place e away) := by
  unfold State.place
  extract_lets s1 x b g src s2
  have h1 : s.Keeps s1 := s.floorRaise_keeps e
  have h2 : s1.Keeps s2 := s1.order_keeps e
  refine h1.trans ?_
  clear_value x b g s1 src s2
  split
  · exact State.placeAt_keeps ..
  · split
    · split
      · exact (State.modGroup_keeps ..).trans (State.placeAt_keeps ..)
      · exact (State.modGroup_keeps ..).trans (State.modSide_keeps ..)
    · split
      · refine h2.trans ?_
        split
        · exact State.sendPlace_keeps ..
        · exact State.modPeer_keeps ..
      · exact .refl _

theorem State.intake_keeps (e : Nat) (reqs : List (Source × Nat)) (away : Option Nat) : s.Keeps (s.intake e reqs away) := by
  unfold State.intake
  split
  · exact State.heldPl_keeps _
  · exact State.place_keeps ..

theorem State.enter_keeps (e : Nat) (own : List (Source × Nat)) (c : Option (List (Source × Nat))) : s.Keeps (s.enter e own c) := by
  cases c with
  | none => exact State.intake_keeps ..
  | some l => exact State.heldPl_keeps _

/-! ### Posts (02 R39 to R41) -/

theorem State.addPosting_keeps (e : Nat) (st : Option (Source × Nat)) : s.Keeps (s.addPosting e st) := by
  unfold State.addPosting
  split
  · split
    · exact .refl s
    · exact ⟨rfl, fun h => { h with }⟩
  · exact .refl s

theorem State.lodge_keeps (st : Stim) (i e : Nat) (x : Entry) (p : Option (Source × Nat)) (more : Option (List (Source × Nat))) :
    s.Keeps (s.lodge st i e x p more) := by
  unfold State.lodge
  extract_lets s1 reqs s2
  have h1 : s.Keeps s1 := (State.addPosting_keeps ..).trans (State.modSide_keeps ..)
  have h2 : s1.Keeps s2 := State.apply_keeps ..
  refine (h1.trans h2).trans ?_
  split
  · exact State.enter_keeps ..
  · exact .refl _

theorem State.merge_keeps (q : PostReq) (e : Nat) : s.Keeps (s.merge q e) := by
  unfold State.merge
  extract_lets x pay away s1 s2 y s3
  have h1 : s.Keeps s1 := State.addPosting_keeps ..
  have h2 : s1.Keeps s2 := by
    show s1.Keeps (if away = true then s1.modSide e _ else s1)
    split
    · exact State.modSide_keeps ..
    · exact .refl _
  have h3 : s2.Keeps s3 := State.apply_keeps ..
  refine ((h1.trans h2).trans h3).trans ?_
  split
  · exact State.sendUpdate_keeps ..
  · exact .refl _

/-- A post, whatever its outcome. -/
theorem State.post_keeps (q : PostReq) (e : Nat) : s.Keeps (s.post q e).2 := by
  unfold State.post
  dsimp only
  split
  · exact .refl s
  · split
    · exact .refl s
    · split
      · exact State.lodge_keeps ..
      · exact State.lodge_keeps ..
      · exact State.apply_keeps ..
      · exact .refl s
      · exact .refl s
      · exact .refl s
      · split
        · exact State.merge_keeps ..
        · exact .refl s

theorem State.wirePost_keeps (n : Nat) : s.Keeps (s.wirePost n) := by
  unfold State.wirePost
  extract_lets q
  have h := s.post_keeps q (0x40 + n)
  have hp : ∀ v : BitVec 1024, (s.post q (0x40 + n)).2.Keeps { (s.post q (0x40 + n)).2 with wf.pend := v } :=
    fun v => ⟨rfl, fun c => { c with }⟩
  split
  · next e => rw [e] at h hp; exact h.trans (hp _)
  · next e => rw [e] at h hp; exact h.trans (hp _)

theorem State.lineRepost_keeps (was : Bool) (e : Nat) : s.Keeps (s.lineRepost was e) := by
  unfold State.lineRepost
  split <;> split <;> first | exact State.wirePost_keeps _ | exact .refl s

/-- A change of an entry with its wired line's posts presented. -/
theorem State.change_keeps (st : Option Stim) (i e : Nat) (x : Entry) : s.Keeps (s.change st i e x) :=
  (State.apply_keeps ..).trans (State.lineRepost_keeps ..)

/-- The post of an internal source. -/
theorem State.internal_keeps (src detail : Nat) : s.Keeps (s.internal src detail) := by
  have hold : ∀ (u : State) (d : Option (BitVec 24)), u.Keeps { u with lt.srcPend := tset none u.lt.srcPend src d } :=
    fun u d => ⟨rfl, fun h => { h with srcPend := twf_tset h.srcPend .. }⟩
  unfold State.internal
  extract_lets d hold'
  split
  · exact hold s _
  · have h := s.post_keeps { payload := some (d.setWidth 36), merge := true } src
    split
    · next e => rw [e] at h; exact h.trans (hold _ _)
    · next e => rw [e] at h; exact h.trans (hold _ _)

theorem State.cancel_keeps (e : Nat) : s.Keeps (s.cancel e).2 := by
  unfold State.cancel
  dsimp only
  split
  · exact State.change_keeps ..
  · exact State.change_keeps ..
  · exact State.change_keeps ..
  · exact State.change_keeps ..
  · exact State.change_keeps ..
  · exact State.apply_keeps ..
  · exact .refl s

theorem State.maskSet_keeps (e : Nat) : s.Keeps (s.maskSet e) := by
  unfold State.maskSet
  dsimp only
  split
  · exact .refl s
  · exact State.apply_keeps ..

theorem State.maskClear_keeps (e : Nat) (more : Option (List (Source × Nat))) : s.Keeps (s.maskClear e more) := by
  unfold State.maskClear
  extract_lets x s1
  split
  · exact .refl s
  · split
    · exact (State.apply_keeps ..).trans (State.enter_keeps ..)
    · have h1 : s.Keeps s1 := State.apply_keeps ..
      refine h1.trans ?_
      split
      · exact State.settle_keeps _
      · exact .refl _

theorem State.squash_keeps (e : Nat) : s.Keeps (s.squash e) := by
  unfold State.squash
  dsimp only
  split
  · exact .refl s
  · exact State.change_keeps ..

theorem State.lostStim_keeps (e : Nat) (k : BitVec 2) : s.Keeps (s.lostStim e k) := by
  unfold State.lostStim
  dsimp only
  split <;> exact ⟨rfl, fun h => { h with }⟩

theorem State.release_keeps (e : Nat) (b : Bool) (more : Option (List (Source × Nat))) : s.Keeps (s.release e b more) := by
  unfold State.release
  dsimp only
  split
  · split
    · exact State.apply_keeps ..
    · exact State.lodge_keeps ..
  · exact State.lodge_keeps ..
  · exact State.lostStim_keeps ..
  · exact .refl s

theorem State.unholdFollow_keeps (e : Nat) : s.Keeps (s.unholdFollow e) := by
  unfold State.unholdFollow
  dsimp only
  split
  · exact State.change_keeps ..
  · exact State.change_keeps ..
  · exact State.lostStim_keeps ..
  · exact .refl s

theorem State.gate_keeps (e : Nat) (st : EvState) (p : Option (BitVec 36)) : s.Keeps (s.gate e st p) := by
  unfold State.gate
  dsimp only
  split
  · exact State.apply_keeps ..
  · exact .refl s

theorem State.reoffer_keeps (i e : Nat) (x : Entry) (m : Bool) : s.Keeps (s.reoffer i e x m) :=
  ((((State.putEntry_keeps ..).trans (State.unrank_keeps _)).trans (State.modSide_keeps ..)).trans (State.settleO_keeps _)).trans
    (State.settleO_keeps _)

theorem State.complete_keeps (i e : Nat) : s.Keeps (s.complete i e) := by
  unfold State.complete
  dsimp only
  split
  · exact State.change_keeps ..
  · exact State.lodge_keeps ..
  · exact .refl s

end Sys2Proof.Machine
end

