-- ==== Sys2Proof/Tests/Slice0.lean ====
section
/-! SUPPORT. Tests: ill-formed commands that WellFormed refuses, states that meet the hypotheses of every statement clause by clause,
and small commands whose result the spec gives. -/
namespace Sys2Proof.Tests
set_option linter.unusedVariables false
set_option Elab.async false
open Sys2Proof Sys2Proof.Machine

/-! ### States to test on -/

/-- A block in RUN and READY: the store sealed, four Porters active and one spare in each cluster, function 0 and function 1 in service. -/
def live : State :=
  { State.reset with
    np.porst := true, np.pswEn := 0xFFFFFF, np.pswGood := 0xFFFFFF,
    ts.phase := .ready, ts.bistDone := true, ts.bistPass := true, wf.enabled := true,
    lt.seed := 0x123456789ABCDEF0123456789ABCDEF0, lt.scramble := 1, st.storeOk := 0xFFFF, st.sealed := true,
    gl.tbSeen := true, gl.time := 0x123456789,
    pa.porters := (List.range 80).map fun k => (k, { state := if k % 5 < 4 then .active else .spare }),
    fm.fns := [(0, { state := .inService }),
      (1, { state := .inService, gen := 3, lodgN := 1, ledgN := 1, nqN := 1, vecN := 1, priCeil := 100, share := 4 })],
    fm.zeroDone := true }

/-- The state after a command. -/
def after (c : Instr) (s : State) : State := match exec c s with | .next t => t | _ => s

/-! ### The conditions of statements, as tests -/

/-- Each array of a state, in canonical form or not. -/
def arrayChecks (s : State) : List Bool :=
  [twf {} s.lt.entries, twf none s.lt.word1, twf {} s.lt.side, twf [] s.lt.dispatch, twf none s.lt.srcPend] ++
  [twf {} s.mi.chCfg, twf {} s.mi.channels, twf {} s.lg.ctxs, twf none s.lg.held, twf none s.lg.locks] ++
  [twf false s.lg.waits, twf 0 s.lg.keywin, twf {} s.lg.curves, twf {} s.pa.porters, twf none s.pa.runs] ++
  [twf none s.pa.watch, twf {} s.pa.queues, twf 0 s.st.words, twf none s.st.own, twf 0 s.st.reloadSrc] ++
  [twf 0x555555555555 s.ab.pri, twf (List.range 24) s.ab.ranks, twf none s.ab.holds, twf {} s.rn.targets, twf {} s.rn.groups] ++
  [twf 0 s.rn.orders, twf none s.rn.visitors, twf {} s.cf.classes, twf {} s.fm.fns, twf {} s.tg.regions, twf {} s.cu.ports] ++
  [twf {} s.cu.peers, twf {} s.cu.shEntries, twf {} s.cu.shCtxs, twf {} s.cu.shFns, twf none s.np.idleSince] ++
  [twf {} s.ts.loops, twf {} s.ts.dloops, twf {} s.gb.ranges, twf 0 s.gb.buffer, twf 0 s.gl.scratch]
def canonicalB (s : State) : Bool := (arrayChecks s).all id

theorem canonical_of {s : State} (h : canonicalB s = true) : s.Canonical := by
  have k : ∀ b ∈ arrayChecks s, b = true := List.all_eq_true.mp h
  constructor <;> exact k _ (by simp [arrayChecks])

def noneWaitsB (s : State) : Bool :=
  s.blocked = [] && s.rn.unsettled = [] && s.pa.stranded = [] && s.cu.peers.all fun p => p.2.waiting = []
theorem noneWaits_of {s : State} (h : noneWaitsB s = true) : s.NoneWaits := by
  simp only [noneWaitsB, Bool.and_eq_true, List.all_eq_true, decide_eq_true_eq, and_assoc] at h
  exact ⟨h.1, h.2.1, h.2.2.1, fun b => tget_of_all (P := fun x : Peer => x.waiting = []) rfl h.2.2.2 b⟩

def calmB (s : State) : Bool := noneWaitsB s && s.stillFns = [] && s.gb.gapDue = none && s.fm.mig = none && !s.mirrorOn
theorem calm_of {s : State} (h : calmB s = true) : s.Calm := by
  simp only [calmB, Bool.and_eq_true, Bool.not_eq_true', decide_eq_true_eq, and_assoc] at h
  exact ⟨noneWaits_of h.1, h.2.1, h.2.2.1, h.2.2.2.1, h.2.2.2.2⟩

def onlyContextB (s : State) (c : Nat) : Bool :=
  s.lg.ctxs.map (·.1) = [c] && (s.ctx c).state = .opened && s.ctxLock c = none && !s.ctxWait c &&
  (s.fn (s.ctx c).owner.toNat).state = .inService
theorem onlyContext_of {s : State} {c : Nat} (h : onlyContextB s c = true) : s.OnlyContext c := by
  simp only [onlyContextB, Bool.and_eq_true, Bool.not_eq_true', decide_eq_true_eq, and_assoc] at h
  exact ⟨h.1, h.2.1, h.2.2.1, h.2.2.2.1, h.2.2.2.2⟩

def letInB (s : State) (h : HpAttr) : Bool := s.live && s.np.porst && s.portRoom h
theorem letIn_of {s : State} {h : HpAttr} (hb : letInB s h = true) : s.LetIn h := by
  simp only [letInB, Bool.and_eq_true, and_assoc] at hb
  exact ⟨hb.1, hb.2.1, hb.2.2⟩

def unplacedB (s : State) (e : Nat) : Bool :=
  let d := s.side e
  d.placed = none && d.holder = none && d.room = none && d.lock = none && !d.wait
theorem unplaced_of {s : State} {e : Nat} (h : unplacedB s e = true) : s.Unplaced e := by
  simp only [unplacedB, Bool.and_eq_true, Bool.not_eq_true', decide_eq_true_eq, and_assoc] at h
  exact ⟨h.1, h.2.1, h.2.2.1, h.2.2.2.1, h.2.2.2.2⟩

def aloneB (s : State) (e : Nat) : Bool := canonicalB s && calmB s && !s.gb.enable && unplacedB s e
theorem alone_of {s : State} {e : Nat} (h : aloneB s e = true) : s.Alone e := by
  simp only [aloneB, Bool.and_eq_true, Bool.not_eq_true', and_assoc] at h
  exact ⟨canonical_of h.1, calm_of h.2.1, h.2.2.1, unplaced_of h.2.2.2⟩

def noCandidateB (s : State) (t : Nat) : Bool :=
  (s.target t).front = [] && (s.target t).bands = [] && (s.target t).offered = none
theorem noCandidate_of {s : State} {t : Nat} (h : noCandidateB s t = true) : s.NoCandidate t := by
  simp only [noCandidateB, Bool.and_eq_true, decide_eq_true_eq, and_assoc] at h
  exact ⟨h.1, h.2.1, h.2.2⟩

def fetchesB (s : State) (r : RunRef) (x : Run) (op : Nat) (f : LqFields) : Bool :=
  s.stepping r = some x && !s.copyBad r.cluster.toNat x.pc.toNat && s.copyWord r.cluster.toNat x.pc.toNat = lqWord op f &&
  lqWord op f ≠ 0 && x.steps < x.budget
theorem fetches_of {s : State} {r : RunRef} {x : Run} {op : Nat} {f : LqFields} (h : fetchesB s r x op f = true) :
    s.Fetches r x op f := by
  simp only [fetchesB, Bool.and_eq_true, Bool.not_eq_true', decide_eq_true_eq, and_assoc] at h
  exact ⟨h.1, h.2.1, h.2.2.1, h.2.2.2.1, h.2.2.2.2⟩

def readsB (s : State) (r : RunRef) (x : Run) (i : Item) (y : Run) (t : State) (it : ReadItem) : Bool :=
  match s.readItem r x i with
  | .got y' t' it' => y' = y && t' = t && it' = it
  | _ => false
theorem reads_of {s : State} {r : RunRef} {x y : Run} {i : Item} {t : State} {it : ReadItem}
    (h : readsB s r x i y t it = true) : s.Reads r x i y t it := by
  unfold readsB at h
  unfold State.Reads
  split at h
  · simp only [Bool.and_eq_true, decide_eq_true_eq, and_assoc] at h
    simp_all
  · cases h

def onEntryB (s : State) (r : RunRef) (x : Run) (op : Nat) (ok : LqFields → Bool) (f : LqFields) (e : Nat) (y : Run) (t : State)
    (it : ReadItem) : Bool :=
  fetchesB s r x op f && ok f && x.pc ≠ 0xFFF && x.eventA f = some e && readsB s r x.counted (.entry e) y t it &&
  y.effects.length < 16
theorem onEntry_of {s : State} {r : RunRef} {x : Run} {op : Nat} {ok : LqFields → Bool} {f : LqFields} {e : Nat} {y : Run} {t : State}
    {it : ReadItem} (h : onEntryB s r x op ok f e y t it = true) : s.OnEntry r x op ok f e y t it := by
  simp only [onEntryB, Bool.and_eq_true, decide_eq_true_eq, and_assoc] at h
  exact ⟨fetches_of h.1, h.2.1, h.2.2.1, h.2.2.2.1, reads_of h.2.2.2.2.1, h.2.2.2.2.2⟩

def onCtxB (s : State) (r : RunRef) (x : Run) (op : Nat) (ok : LqFields → Bool) (f : LqFields) (c : Nat) (y : Run) (t : State)
    (it : ReadItem) : Bool :=
  fetchesB s r x op f && ok f && x.pc ≠ 0xFFF && c = (x.w f.a.toNat).toNat && readsB s r x.counted (.ctx c) y t it &&
  y.effects.length < 16
theorem onCtx_of {s : State} {r : RunRef} {x : Run} {op : Nat} {ok : LqFields → Bool} {f : LqFields} {c : Nat} {y : Run} {t : State}
    {it : ReadItem} (h : onCtxB s r x op ok f c y t it = true) : s.OnCtx r x op ok f c y t it := by
  simp only [onCtxB, Bool.and_eq_true, decide_eq_true_eq, and_assoc] at h
  exact ⟨fetches_of h.1, h.2.1, h.2.2.1, h.2.2.2.1, reads_of h.2.2.2.2.1, h.2.2.2.2.2⟩

/-- The lines that bring a port which holds a map the flit of head h and slots l, each symbol that `flip` names changed. -/
def linesOf (p : Port) (h : FlitHead) (l : List (BitVec 128)) (flip : Nat → Nat → Bool) : List (List Pam4) :=
  let q := ({ p with lanes := p.lanes.map fun x => (x.1, { x.2 with txKey := x.2.rxKey }) } : Port).onLine h l
  (List.range 5).map fun k => (tget [] q.line k).zipIdx.map fun x => if flip k x.2 then (if x.1 = .m3 then .p3 else .m3) else x.1

/-- A port that receives on a map of four lanes, each at a scrambler state of its own. -/
def lineEnd : Port := { map := 15, width := 4, lanes := (List.range 5).map fun k => (k, { rxKey := 5 + BitVec.ofNat 31 k }) }

/-- The header of an image with one range of each kind, and the image of that header and one vector. -/
def imageHead : List Byte :=
  [0x42, 0x41, 0x53, 0x4F, 1, 0, 0x10, 1] ++ List.replicate 8 0 ++
  [1, 0, 1, 0, 2, 0, 1, 0, 1, 0, 6, 0, 0, 0, 0xE8, 9, 0, 0] ++ List.replicate 30 0
def imageVec : List Byte := imageHead ++ [5, 0, 1, 0, 0, 0, 0, 0, 0x38, 0x12, 0, 0, 0, 0, 0, 0, 9, 0, 0, 0, 1, 0, 0, 0]

/-! ### Ill-formed commands are refused -/

/-- One ill-formed term for each kind of check, and the same term made well formed. -/
theorem test_ill_run_context : (Instr.add ⟨2, 5, 0⟩ ⟨false, false, 0, 0, 0, 0, 0⟩).wf = false ∧ (Instr.dispatchRead ⟨2, 7, 0⟩).wf = false ∧
    (Instr.add ⟨2, 4, 0⟩ ⟨false, false, 0, 0, 0, 0, 0⟩).wf = true := by decide
theorem test_ill_porter : (Instr.contextReturn 0 5).wf = false ∧ (Instr.porterCheckFail 0 5 .decode).wf = false ∧
    (Instr.porterWatchdogExpiry 0 6).wf = false ∧ (Instr.contextReturn 15 4).wf = true := by decide
theorem test_ill_function : (Instr.fenceDoorbell ⟨0, 0, true, true, 0⟩ 513 0).wf = false ∧ (Instr.heldFenceRelease 600).wf = false ∧
    (Instr.flrDrainComplete 513).wf = false ∧ (Instr.nqConsWrite ⟨0, 0, true, true, 0⟩ 513 0 0).wf = false ∧
    (Instr.heldFenceRelease 512).wf = true := by decide
theorem test_ill_arbiter : (Instr.holdMaxExpiry 40).wf = false ∧ (Instr.starveLimitExpiry 39 24).wf = false ∧
    (Instr.arbGrant 40 []).wf = false ∧ (Instr.arbGrant 0 [⟨24, none, 1⟩]).wf = false ∧
    (Instr.arbGrant 0 [⟨3, some ⟨2, 0, 0⟩, 1⟩]).wf = false ∧ (Instr.arbGrant 0 [⟨3, none, 0⟩]).wf = false ∧
    (Instr.arbGrant 0 [⟨3, none, 5⟩]).wf = false ∧ (Instr.arbGrant 39 [⟨3, some ⟨3, 0, 0⟩, 4⟩, ⟨23, none, 1⟩]).wf = true := by decide
theorem test_ill_request :
    (Instr.hostRequest ⟨⟨0, 0, true, true, 0⟩, 0x44, 8, true, [1], [0xFF]⟩).wf = false ∧
    (Instr.hostRequest ⟨⟨0, 0, true, true, 0⟩, 0x44, 4, true, [1], [0x0F]⟩).wf = false ∧
    (Instr.hostRequest ⟨⟨0, 0, true, true, 0⟩, 0x44, 4, true, [1], [0xF0]⟩).wf = true ∧
    (Instr.hostRequest ⟨⟨0, 0, true, true, 0⟩, 0x44, 4, false, [], []⟩).wf = true := by decide
theorem test_ill_windows : (Instr.ledgerWindowHeldWrite ⟨0, 0, true, true, 0⟩ 0 0 5).wf = false ∧
    (Instr.ledgerWindowHeldWrite ⟨0, 0, true, true, 0⟩ 0 1 5).wf = true ∧
    (Instr.snapshotWindowWrite ⟨0, 0, true, true, 0⟩ 4 5).wf = false ∧
    (Instr.snapshotWindowWrite ⟨0, 0, true, true, 0⟩ 8 5).wf = true := by decide
theorem test_ill_line : (Instr.flitReceive 0 []).wf = false ∧ (Instr.flitReceive 0 (List.replicate 5 [])).wf = true ∧
    (Instr.flitReceive 0 ([.m3] :: List.replicate 4 [])).wf = false ∧
    (Instr.flitReceive 0 (List.replicate 544 .p1 :: List.replicate 4 [])).wf = true ∧
    (Instr.peerDetected 0 5).wf = false ∧ (Instr.trainingBlockReceive 0 5 0).wf = false ∧ (Instr.spareLockTimeout 0 7).wf = false ∧
    (Instr.prbs31BlockReceive 0 5 []).wf = false ∧ (Instr.prbs31BlockReceive 0 4 [.m3]).wf = false ∧
    (Instr.prbs31BlockReceive 0 4 (List.replicate 544 .m3)).wf = true ∧ (Instr.flitLockLoss 0 4).wf = true := by decide +kernel
theorem test_ill_rooms : (Instr.returnRooms 0 []).wf = false ∧ (Instr.returnRooms 0 [0, 1, 2, 3, 4, 5, 6]).wf = false ∧
    (Instr.returnRooms 0 [0, 1, 2, 3, 4, 5]).wf = true := by decide
theorem test_ill_arrays : (Instr.scrubPass 0 0 .clean).wf = false ∧ (Instr.scrubPass 17 0 .clean).wf = false ∧
    (Instr.scrubPass 16 0 .uncorrectable).wf = true ∧ (Instr.domainPowerGood 24 true).wf = false ∧ (Instr.domainPowerGood 23 true).wf = true := by
  decide

/-- An ill-formed command changes nothing (notes/assumptions/1.md). -/
theorem test_ill_stutters : after (.contextReturn 0 5) State.reset = State.reset := by decide +kernel

/-! ### The spec's worked examples -/

/-- 02 Worked example: the fixed seed takes 0x08452 through seven rounds to 117,370. -/
theorem test_scramble_vector :
    (List.range 8).map (fun n => (List.range n).foldl (fun v i => scrambleRound 0 i v) 0x08452) =
      [0x08452, 42366, 64947, 91762, 58876, 129225, 103397, 117370] ∧ scramble 0 0x08452 / 4096 = 0x1C := by decide +kernel

/-- 11 R254 and 09 R234: the check values of "123456789". -/
theorem test_check_values :
    crc32c [0x31, 0x32, 0x33, 0x34, 0x35, 0x36, 0x37, 0x38, 0x39] = 0xE3069283 ∧
    crc64 [0x31, 0x32, 0x33, 0x34, 0x35, 0x36, 0x37, 0x38, 0x39] = 0x6C40DF5F0B497347 := by decide +kernel

/-- 06 Worked example: the words of the classifier, SYNCGEN, BUDGET, BITF, SWITCH, TRAP and BR. -/
theorem test_classifier_words :
    lqWord 0x3D ⟨false, false, 0, 0, 0, 0, 0⟩ = 0xF40000000 ∧ lqWord 0x1D ⟨true, false, 12, 0, 0, 0, 40⟩ = 0x76C000028 ∧
    lqWord 0x17 ⟨false, false, 13, 0, 0, 4, 0x48⟩ = 0x5CD004048 ∧ lqWord 0x1C ⟨false, false, 0, 0, 3, 13, 0x305⟩ = 0x70003D305 ∧
    lqWord 0x1F ⟨false, false, 0, 0, 0, 0, 0⟩ = 0x7C0000000 ∧ lqWord 0x18 ⟨false, false, 0, 0, 0, 0, 0x30A⟩ = 0x60000030A := by
  decide

/-- 06 Worked example: LDI24 of 300,000 has the syllables 0x049 and 0x3E0. -/
theorem test_ldi24_syllables : (fld (300000 : BitVec 24) 12 12, fld (300000 : BitVec 24) 0 12) = (0x049, 0x3E0) := by decide

/-- 04 Worked example: LEDG_CURVE3_STEP0 and STEP1. -/
theorem test_curve_words : CurveStep.bits ⟨200000, 0xA00, true⟩ = 0x1A00000030D40 ∧
    CurveStep.bits ⟨150000, 0xC00, true⟩ = 0x1C000000249F0 := by decide

/-- 08 Worked example: CRF_CLASS3, its grid instant, the release for J = 7 and the CONSTANT release. -/
theorem test_curfew_example :
    let c : CurfewClass := { mode := 1, qlog := 12, minHold := 2000, jbits := 4, jstep := 64 }
    let s : State := { live with cf.classes := [(3, c)] }
    c.bits = 0x202003E831 ∧ c.grid 1000242494 = 1000247296 ∧
    s.releaseAt ⟨0x8457, 1000242494, some 7, false, 3, 0⟩ = 1000247744 ∧
    s.releaseAt ⟨0x8457, 1000242494, some 7, true, 3, 0⟩ = 1000001444 + 246812 := by decide +kernel

/-- 12 Worked example: the PLACE slot of work B, byte 0 first. -/
theorem test_place_slot :
    (List.range 16).map (fun i => (byteOf (slotPlace 5 0x8454 0x4C 0x0800 0x3A1 false) i).toNat) =
      [1, 0, 5, 0, 0x54, 0x84, 0, 0x4C, 0, 8, 0xA1, 3, 0, 0, 0, 0] := by decide +kernel

/-- 15 Worked example: the two words of the STATE record of the claim of work A. -/
theorem test_state_record :
    let s : State := { live with gl.time := 1000001513 }
    let r := pack (s.gbHead 2 0x8453 ++ [(4, 3), (4, 4), (5, Stim.claim.code), (12, 0x54), (10, 7), (8, 0x48)])
    r % 2 ^ 64 = 0x88684533B9ACFE92 ∧ r / 2 ^ 64 = 0x4801C151 := by decide +kernel

/-- 17 Worked example: GLB_CAP. -/
theorem test_glb_cap : glbCap = 0x0188200100596100 := by decide

/-- 10 Worked example: region 72, and what it admits of the core's accesses: offset 0x40 is no region's, 16 bytes at 0x38 no shape. -/
theorem test_region_example :
    let r : Region := { valid := true, read := true, write := true, init := 0x48, sizeLog := 6, base := 0x5200 }
    let q (a : BitVec 27) (n : BitVec 7) : HpReq := ⟨⟨0, 0, false, false, 0x48⟩, a, n, false, [], []⟩
    let s : State := { live with tg.regions := [(72, r)] }
    r.bits = 0x000014800C900007 ∧ s.judge (q 0x148000 8) = .pass ∧ s.judge (q 0x148038 8) = .pass ∧
      shapeOk (q 0x148038 16) = false ∧ s.judge (q 0x148040 8) = .deny 6 := by decide +kernel

/-! ### One command at a time -/

/-- live with a run of entry 0x2001 in context 0 of Porter 1 of cluster 2, its PC at 0x301, and word w there. -/
def at301 (w : BitVec 36) (regs : Tbl (BitVec 12)) : State :=
  { live with
    pa.porters := tset {} live.pa.porters 11 { state := .active }
    pa.runs := [(22, some { event := 0x2001, entryPc := 0x300, fn := 1, order := 5, pc := 0x301, regs := regs, steps := 1, budget := 256 })]
    st.words := [(0x301, w)]
    lt.entries := [(0x2001, { state := .posted, run := true, function := 1 })] }

/-- The run after command c. -/
def runAfter (c : Instr) (s : State) : Option Run := tget none (after c s).pa.runs 22

/-- 06 Worked example: BUDGET W12, #40 at the second step leaves 38 in W12. -/
theorem test_budget_example :
    (runAfter (.budget ⟨2, 1, 0⟩ ⟨true, false, 12, 0, 0, 0, 40⟩) (at301 0x76C000028 [])).map
      (fun x => (x.w 12, x.steps, x.pc)) = some (38, 2, 0x302) := by decide +kernel

/-- 06 Worked example: BITF W13, W4, #8, #4 takes payload bits 35 to 32 from W4. -/
theorem test_bitf_example :
    (runAfter (.bitf ⟨2, 1, 0⟩ ⟨false, false, 13, 0, 0, 4, 0x48⟩) (at301 0x5CD004048 [(4, 0x1A7)])).map
      (fun x => (x.w 13, x.z, x.n)) = some (1, false, false) := by decide +kernel

/-- 06 Worked example: SWITCH W13, #3, 0x305 goes to 0x306 for kind 1 and falls through for kind 9. -/
theorem test_switch_example :
    (runAfter (.switch ⟨2, 1, 0⟩ ⟨false, false, 0, 0, 3, 13, 0x305⟩) (at301 0x70003D305 [(13, 1)])).map (·.pc) = some 0x306 ∧
    (runAfter (.switch ⟨2, 1, 0⟩ ⟨false, false, 0, 0, 3, 13, 0x305⟩) (at301 0x70003D305 [(13, 9)])).map (·.pc) = some 0x302 := by
  decide +kernel

/-- 06 Table 06-7: ADD wraps at 12 bits and sets C and Z. -/
theorem test_add_wraps :
    (runAfter (.add ⟨2, 1, 0⟩ ⟨false, false, 3, 0, 2, 1, 0⟩) (at301 (lqWord 0 ⟨false, false, 3, 0, 2, 1, 0⟩) [(1, 0xFFF), (2, 1)])).map
      (fun x => (x.w 3, x.c, x.z, x.n)) = some (0, true, true, false) := by decide +kernel

/-- 06 R153: TRAP ends the run; the entry is trapped and a record stands in ITIN_TRAP's list, CAUSE 1. -/
theorem test_trap_record :
    let t := after (.trap ⟨2, 1, 0⟩ ⟨false, false, 0, 0, 0, 0, 0⟩) (at301 0x7C0000000 [])
    (t.side 0x2001).trapped = true ∧ (t.entry 0x2001).run = false ∧ t.lt.itinTraps.length = 1 ∧ tget none t.pa.runs 22 = none := by decide +kernel

/-- 17 R364: a scratch register holds what is written to it. -/
theorem test_scratch_write :
    let s := after (.registerWrite ⟨0, 0, true, true, 0⟩ 0x40 0x1122334455667788) live
    s.hp.answer.isSome ∧ s.readReg 0x40 = some 0x1122334455667788 := by decide +kernel

/-- 17 Table 17-8: GLB_STEPMAX is 0x100 at reset, and a write of 3 stores 16. -/
theorem test_stepmax : State.reset.readReg 0x28 = some 0x100 ∧
    (after (.registerWrite ⟨0, 0, true, true, 0⟩ 0x28 3) live).readReg 0x28 = some 16 := by decide +kernel

/-! ### The states of the witnesses -/

def w1 : State := { live with pa.porters := tset {} live.pa.porters 11 { state := .active, exec := 1 }, pa.runs := [(23, some { event := 0x2001, entryPc := 4, fn := 1, order := 5, budget := 256 })], st.words := [(0, 0x4000)] }
def w2 : State := { live with pa.porters := tset {} live.pa.porters 11 { state := .active, exec := 1 }, pa.runs := [(23, some { event := 0x2001, entryPc := 4, fn := 1, order := 5, budget := 256 })], st.words := [(0, 0x40000000)] }
def w3 : State := { live with pa.porters := tset {} live.pa.porters 11 { state := .active, exec := 1 }, pa.runs := [(23, some { event := 0x2001, entryPc := 4, fn := 1, order := 5, budget := 256 })], st.words := [(0, 0x80000000)] }
def w4 : State := { live with pa.porters := tset {} live.pa.porters 11 { state := .active, exec := 1 }, pa.runs := [(23, some { event := 0x2001, entryPc := 4, fn := 1, order := 5, budget := 256 })], st.words := [(0, 0xC0000000)] }
def w5 : State := { live with pa.porters := tset {} live.pa.porters 11 { state := .active, exec := 1 }, pa.runs := [(23, some { event := 0x2001, entryPc := 4, fn := 1, order := 5, budget := 256 })], st.words := [(0, 0x380000000)] }
def w6 : State := { live with pa.porters := tset {} live.pa.porters 11 { state := .active, exec := 1 }, pa.runs := [(23, some { event := 0x2001, entryPc := 4, fn := 1, order := 5, budget := 256 })], st.words := [(0, 0x100000000)] }
def w7 : State := { live with pa.porters := tset {} live.pa.porters 11 { state := .active, exec := 1 }, pa.runs := [(23, some { event := 0x2001, entryPc := 4, fn := 1, order := 5, budget := 256 })], st.words := [(0, 0x140000000)] }
def w8 : State := { live with pa.porters := tset {} live.pa.porters 11 { state := .active, exec := 1 }, pa.runs := [(23, some { event := 0x2001, entryPc := 4, fn := 1, order := 5, budget := 256 })], st.words := [(0, 0x180000000)] }
def w9 : State := { live with pa.porters := tset {} live.pa.porters 11 { state := .active, exec := 1 }, pa.runs := [(23, some { event := 0x2001, entryPc := 4, fn := 1, order := 5, budget := 256 })], st.words := [(0, 0x1C0000000)] }
def w10 : State := { live with pa.porters := tset {} live.pa.porters 11 { state := .active, exec := 1 }, pa.runs := [(23, some { event := 0x2001, entryPc := 4, fn := 1, order := 5, budget := 256 })], st.words := [(0, 0x3C0000000)] }
def w11 : State := { live with pa.porters := tset {} live.pa.porters 11 { state := .active, exec := 1 }, pa.runs := [(23, some { event := 0x2001, entryPc := 4, fn := 1, order := 5, budget := 256 })], st.words := [(0, 0x300000000)] }
def w12 : State := { live with pa.porters := tset {} live.pa.porters 11 { state := .active, exec := 1 }, pa.runs := [(23, some { event := 0x2001, entryPc := 4, fn := 1, order := 5, budget := 256 })], st.words := [(0, 0x340000000)] }
def w13 : State := { live with pa.porters := tset {} live.pa.porters 11 { state := .active, exec := 1 }, pa.runs := [(23, some { event := 0x2001, entryPc := 4, fn := 1, order := 5, budget := 256 })], st.words := [(0, 0x200000000)] }
def w14 : State := { live with pa.porters := tset {} live.pa.porters 11 { state := .active, exec := 1 }, pa.runs := [(23, some { event := 0x2001, entryPc := 4, fn := 1, order := 5, budget := 256 })], st.words := [(0, 0x240000000)] }
def w15 : State := { live with pa.porters := tset {} live.pa.porters 11 { state := .active, exec := 1 }, pa.runs := [(23, some { event := 0x2001, entryPc := 4, fn := 1, order := 5, budget := 256 })], st.words := [(0, 0x280000000)] }
def w16 : State := { live with pa.porters := tset {} live.pa.porters 11 { state := .active, exec := 1 }, pa.runs := [(23, some { event := 0x2001, entryPc := 4, fn := 1, order := 5, budget := 256 })], st.words := [(0, 0x2C0000000)] }
def w17 : State := { live with pa.porters := tset {} live.pa.porters 11 { state := .active, exec := 1 }, pa.runs := [(23, some { event := 0x2001, entryPc := 4, fn := 1, order := 5, budget := 256 })], st.words := [(0, 0x400000000)] }
def w18 : State := { live with pa.porters := tset {} live.pa.porters 11 { state := .active, exec := 1 }, pa.runs := [(23, some { event := 0x2001, entryPc := 4, fn := 1, order := 5, budget := 256 })], st.words := [(0, 0x440000000)] }
def w19 : State := { live with pa.porters := tset {} live.pa.porters 11 { state := .active, exec := 1 }, pa.runs := [(23, some { event := 0x2001, entryPc := 4, fn := 1, order := 5, budget := 256 })], st.words := [(0, 0x490000000)] }
def w20 : State := { live with pa.porters := tset {} live.pa.porters 11 { state := .active, exec := 1 }, pa.runs := [(23, some { event := 0x2001, entryPc := 4, fn := 1, order := 5, budget := 256 })], st.words := [(0, 0x4D0000000)] }
def w21 : State := { live with pa.porters := tset {} live.pa.porters 11 { state := .active, exec := 1 }, pa.runs := [(23, some { event := 0x2001, entryPc := 4, fn := 1, order := 5, budget := 256 })], st.words := [(0, 0x580000000)] }
def w22 : State := { live with pa.porters := tset {} live.pa.porters 11 { state := .active, exec := 1 }, pa.runs := [(23, some { event := 0x2001, entryPc := 4, fn := 1, order := 5, budget := 256 })], st.words := [(0, 0x540000000)] }
def w23 : State := { live with pa.porters := tset {} live.pa.porters 11 { state := .active, exec := 1 }, pa.runs := [(23, some { event := 0x2001, entryPc := 4, fn := 1, order := 5, budget := 256 })], st.words := [(0, 0x5C0000025)] }
def w24 : State := { live with pa.porters := tset {} live.pa.porters 11 { state := .active, exec := 1 }, pa.runs := [(23, some { event := 0x2001, entryPc := 4, fn := 1, order := 5, budget := 256 })], st.words := [(0, 0x500000000)] }
def w25 : State := { live with pa.porters := tset {} live.pa.porters 11 { state := .active, exec := 1 }, pa.runs := [(23, some { event := 0x2001, entryPc := 4, fn := 1, order := 5, budget := 256 })], st.words := [(0, 0x500000001)] }
def w26 : State := { live with pa.porters := tset {} live.pa.porters 11 { state := .active, exec := 1 }, pa.runs := [(23, some { event := 0x2001, entryPc := 4, fn := 1, order := 5, budget := 256 })], st.words := [(0, 0x500000002)] }
def w27 : State := { live with pa.porters := tset {} live.pa.porters 11 { state := .active, exec := 1 }, pa.runs := [(23, some { event := 0x2001, entryPc := 4, fn := 1, order := 5, budget := 256 })], st.words := [(0, 0x500000003)] }
def w28 : State := { live with pa.porters := tset {} live.pa.porters 11 { state := .active, exec := 1 }, pa.runs := [(23, some { event := 0x2001, entryPc := 4, fn := 1, order := 5, budget := 256 })], st.words := [(0, 0x500000005)] }
def w29 : State := { live with pa.porters := tset {} live.pa.porters 11 { state := .active, exec := 1 }, pa.runs := [(23, some { event := 0x2001, entryPc := 4, fn := 1, order := 5, budget := 256 })], st.words := [(0, 0x500000006)] }
def w30 : State := { live with pa.porters := tset {} live.pa.porters 11 { state := .active, exec := 1 }, pa.runs := [(23, some { event := 0x2001, entryPc := 4, fn := 1, order := 5, budget := 256 })], st.words := [(0, 0xF00000000)] }
def w31 : State := { live with pa.porters := tset {} live.pa.porters 11 { state := .active, exec := 1 }, pa.runs := [(23, some { event := 0x2001, entryPc := 4, fn := 1, order := 5, budget := 256 })], st.words := [(0, 0xFC0000000)] }
def w32 : State := { live with pa.porters := tset {} live.pa.porters 11 { state := .active, exec := 1 }, pa.runs := [(23, some { event := 0x2001, entryPc := 4, fn := 1, order := 5, budget := 256 })], st.words := [(0, 0x600000000)] }
def w33 : State := { live with pa.porters := tset {} live.pa.porters 11 { state := .active, exec := 1 }, pa.runs := [(23, some { event := 0x2001, entryPc := 4, fn := 1, order := 5, z := true, budget := 256 })], st.words := [(0, 0x640000000)] }
def w34 : State := { live with pa.porters := tset {} live.pa.porters 11 { state := .active, exec := 1 }, pa.runs := [(23, some { event := 0x2001, entryPc := 4, fn := 1, order := 5, budget := 256 })], st.words := [(0, 0x640000000)] }
def w35 : State := { live with pa.porters := tset {} live.pa.porters 11 { state := .active, exec := 1 }, pa.runs := [(23, some { event := 0x2001, entryPc := 4, fn := 1, order := 5, budget := 256 })], st.words := [(0, 0x680000000)] }
def w36 : State := { live with pa.porters := tset {} live.pa.porters 11 { state := .active, exec := 1 }, pa.runs := [(23, some { event := 0x2001, entryPc := 4, fn := 1, order := 5, stack := [5, 6], budget := 0xFFF })], st.words := [(0, 0x6C0000000)] }
def w37 : State := { live with pa.porters := tset {} live.pa.porters 11 { state := .active, exec := 1 }, pa.runs := [(23, some { event := 0x2001, entryPc := 4, fn := 1, order := 5, budget := 256 })], st.words := [(0, 0x700060000)] }
def w38 : State := { live with pa.porters := tset {} live.pa.porters 11 { state := .active, exec := 1 }, pa.runs := [(23, some { event := 0x2001, entryPc := 4, fn := 1, order := 5, regs := [(0, 0xFFF), (3, 5), (5, 0xFFF), (7, 0x7FF), (9, 0xABC), (11, 0xD), (13, 0x19), (15, 0x801)], budget := 256 })], st.words := [(0, 0x700060000)] }
def w39 : State := { live with pa.porters := tset {} live.pa.porters 11 { state := .active, exec := 1 }, pa.runs := [(23, some { event := 0x2001, entryPc := 4, fn := 1, order := 5, regs := [(0, 0xFFF), (3, 5), (5, 0xFFF), (7, 0x7FF), (9, 0xABC), (11, 0xD), (13, 0x19), (15, 0x801)], budget := 256 })], st.words := [(0, 0x740000000)] }
def w40 : State := { live with pa.porters := tset {} live.pa.porters 11 { state := .active, exec := 1 }, pa.runs := [(23, some { event := 0x2001, entryPc := 4, fn := 1, order := 5, budget := 256 })], st.words := [(0, 0x7C0000000)] }
def w41 : State := { live with pa.porters := tset {} live.pa.porters 11 { state := .active, exec := 1 }, pa.runs := [(23, some { event := 0x2001, entryPc := 4, fn := 1, order := 5, budget := 256 })], st.words := [(0, 0x80000001)] }
def w42 : State := { live with lt.entries := [(0x2001, { state := .posted, run := true })], pa.porters := tset {} live.pa.porters 11 { state := .active, exec := 1 }, pa.runs := [(23, some { event := 0x2001, entryPc := 4, fn := 1, order := 5, budget := 256 })], st.words := [(0, 0x7C0000000)] }
def w43 : State := { live with pa.porters := tset {} live.pa.porters 11 { state := .active, exec := 1 }, pa.runs := [(23, some { event := 0x2001, entryPc := 4, fn := 1, order := 5, budget := 256 })], st.words := [(0, 0x800004000)] }
def w44 : State := { live with pa.porters := tset {} live.pa.porters 11 { state := .active, exec := 1 }, pa.runs := [(23, some { event := 0x2001, entryPc := 4, fn := 1, order := 5, regs := [(1, 2), (3, 0x123), (5, 0x456), (7, 0x103), (9, 0x20), (12, 9)], budget := 256 })], st.words := [(0, 0x800004000)] }
def w45 : State := { live with pa.porters := tset {} live.pa.porters 11 { state := .active, exec := 1 }, pa.runs := [(23, some { event := 0x2001, entryPc := 4, fn := 1, order := 5, budget := 256 })], st.words := [(0, 0xA00004000)] }
def w46 : State := { live with pa.porters := tset {} live.pa.porters 11 { state := .active, exec := 1 }, pa.runs := [(23, some { event := 0x2001, entryPc := 4, fn := 1, order := 5, budget := 256 })], st.words := [(0, 0x840000001)] }
def w47 : State := { live with pa.porters := tset {} live.pa.porters 11 { state := .active, exec := 1 }, pa.runs := [(23, some { event := 0x2001, entryPc := 4, fn := 1, order := 5, regs := [(1, 2), (3, 0x123), (5, 0x456), (7, 0x103), (8, 1), (9, 2), (11, 2), (14, 9)], budget := 256 })], st.words := [(0, 0x840004001)] }
def w48 : State := { live with pa.porters := tset {} live.pa.porters 11 { state := .active, exec := 1 }, pa.runs := [(23, some { event := 0x2001, entryPc := 4, fn := 1, order := 5, regs := [(0, 1), (2, 3), (4, 2), (6, 0x789), (9, 2), (11, 2), (14, 9)], budget := 256 })], st.words := [(0, 0x880004001)] }
def w49 : State := { live with pa.porters := tset {} live.pa.porters 11 { state := .active, exec := 1 }, pa.runs := [(23, some { event := 0x2001, entryPc := 4, fn := 1, order := 5, budget := 256 })], st.words := [(0, 0x88D004001)] }
def w50 : State := { live with pa.porters := tset {} live.pa.porters 11 { state := .active, exec := 1 }, pa.runs := [(23, some { event := 0x2001, entryPc := 4, fn := 1, order := 5, regs := [(1, 2), (3, 0x123), (5, 0x456), (7, 0x103), (9, 2), (11, 2), (14, 9)], budget := 256 })], st.words := [(0, 0x8C0004000)] }
def w51 : State := { live with pa.porters := tset {} live.pa.porters 11 { state := .active, exec := 1 }, pa.runs := [(23, some { event := 0x2001, entryPc := 4, fn := 1, order := 5, budget := 256 })], st.words := [(0, 0x8C0004000)] }
def w52 : State := { live with pa.porters := tset {} live.pa.porters 11 { state := .active, exec := 1 }, pa.runs := [(23, some { event := 0x2001, entryPc := 4, fn := 1, order := 5, regs := [(1, 2), (3, 0x123), (5, 0x456), (7, 0x103), (9, 2), (11, 2), (14, 9)], budget := 256 })], st.words := [(0, 0x940004000)] }
def w53 : State := { live with pa.porters := tset {} live.pa.porters 11 { state := .active, exec := 1 }, pa.runs := [(23, some { event := 0x2001, entryPc := 4, fn := 1, order := 5, budget := 256 })], st.words := [(0, 0x940004000)] }
def w54 : State := { live with lt.entries := [(0x2001, { state := .posted })], pa.porters := tset {} live.pa.porters 11 { state := .active, exec := 1 }, pa.runs := [(23, some { event := 0x2001, entryPc := 4, fn := 1, order := 5, regs := [(1, 2), (3, 0x123), (5, 0x456), (7, 0x103), (8, 1), (9, 2), (11, 2), (14, 9)], budget := 256 })], st.words := [(0, 0x900004000)] }
def w55 : State := { live with pa.porters := tset {} live.pa.porters 11 { state := .active, exec := 1 }, pa.runs := [(23, some { event := 0x2001, entryPc := 4, fn := 1, order := 5, budget := 256 })], st.words := [(0, 0x900004000)] }
def w56 : State := { live with lt.entries := [(0x2001, { state := .posted })], pa.porters := tset {} live.pa.porters 11 { state := .active, exec := 1 }, pa.runs := [(23, some { event := 0x2001, entryPc := 4, fn := 1, order := 5, regs := [(1, 2), (3, 0x123), (5, 0x456), (7, 0x103), (8, 1), (9, 2), (11, 2), (14, 9)], budget := 256 })], st.words := [(0, 0x980004000)] }
def w57 : State := { live with pa.porters := tset {} live.pa.porters 11 { state := .active, exec := 1 }, pa.runs := [(23, some { event := 0x2001, entryPc := 4, fn := 1, order := 5, budget := 256 })], st.words := [(0, 0x980004000)] }
def w58 : State := { live with pa.porters := tset {} live.pa.porters 11 { state := .active, exec := 1 }, pa.runs := [(23, some { event := 0x2001, entryPc := 4, fn := 1, order := 5, budget := 256 })], st.words := [(0, 0x9C0004000)] }
def w59 : State := { live with pa.porters := tset {} live.pa.porters 11 { state := .active, exec := 1 }, pa.runs := [(23, some { event := 0x2001, entryPc := 4, fn := 1, order := 5, regs := [(1, 2), (3, 0x123), (5, 0x456), (7, 0x103), (8, 1), (9, 2), (11, 2), (14, 9)], budget := 256 })], st.words := [(0, 0x9C0004000)] }
def w60 : State := { live with lt.entries := [(0x2006, { ctxv := true })], pa.porters := tset {} live.pa.porters 11 { state := .active, exec := 1 }, pa.runs := [(23, some { event := 0x2001, entryPc := 4, fn := 1, order := 5, regs := [(1, 2), (3, 0x123), (5, 0x456), (7, 0x103), (8, 6), (9, 2), (11, 2), (14, 9)], budget := 256 })], st.words := [(0, 0x9C0004000)] }
def w61 : State := { live with lg.ctxs := [(2, { state := .lapsed })], pa.porters := tset {} live.pa.porters 11 { state := .active, exec := 1 }, pa.runs := [(23, some { event := 0x2001, entryPc := 4, fn := 1, order := 5, regs := [(1, 2), (3, 0x123), (4, 2), (6, 0x789), (9, 2), (11, 2), (14, 9)], budget := 256 })], st.words := [(0, 0xA40004000)] }
def w62 : State := { live with pa.porters := tset {} live.pa.porters 11 { state := .active, exec := 1 }, pa.runs := [(23, some { event := 0x2001, entryPc := 4, fn := 1, order := 5, budget := 256 })], st.words := [(0, 0xA40008000)] }
def w63 : State := { live with lg.ctxs := [(2, { state := .lapsed, count := 5 })], pa.porters := tset {} live.pa.porters 11 { state := .active, exec := 1 }, pa.runs := [(23, some { event := 0x2001, entryPc := 4, fn := 1, order := 5, regs := [(1, 2), (3, 0x123), (4, 2), (6, 0x789), (9, 2), (11, 2), (14, 9)], budget := 256 })], st.words := [(0, 0xA80004000)] }
def w64 : State := { live with pa.porters := tset {} live.pa.porters 11 { state := .active, exec := 1 }, pa.runs := [(23, some { event := 0x2001, entryPc := 4, fn := 1, order := 5, budget := 256 })], st.words := [(0, 0xA80008000)] }
def w65 : State := { live with pa.porters := tset {} live.pa.porters 11 { state := .active, exec := 1 }, pa.runs := [(23, some { event := 0x2001, entryPc := 4, fn := 1, order := 5, regs := [(0, 1), (2, 3), (4, 2), (6, 0x789), (9, 2), (11, 2), (14, 9)], budget := 256 })], st.words := [(0, 0xAC0008000)] }
def w66 : State := { live with pa.porters := tset {} live.pa.porters 11 { state := .active, exec := 1 }, pa.runs := [(23, some { event := 0x2001, entryPc := 4, fn := 1, order := 5, budget := 256 })], st.words := [(0, 0xAC0004000)] }
def w67 : State := { live with lg.ctxs := [(1, { state := .opened })], pa.porters := tset {} live.pa.porters 11 { state := .active, exec := 1 }, pa.runs := [(23, some { event := 0x2001, entryPc := 4, fn := 1, order := 5, regs := [(1, 2), (3, 0x123), (5, 0x456), (7, 0x103), (8, 1), (10, 3), (12, 0x44), (15, 8)], budget := 256 })], st.words := [(0, 0xB00008000)] }
def w68 : State := { live with pa.porters := tset {} live.pa.porters 11 { state := .active, exec := 1 }, pa.runs := [(23, some { event := 0x2001, entryPc := 4, fn := 1, order := 5, budget := 256 })], st.words := [(0, 0xB00004000)] }
def w69 : State := { live with lg.ctxs := [(1, { state := .opened })], pa.porters := tset {} live.pa.porters 11 { state := .active, exec := 1 }, pa.runs := [(23, some { event := 0x2001, entryPc := 4, fn := 1, order := 5, regs := [(1, 2), (3, 0x123), (5, 0x456), (7, 0x103), (8, 1), (10, 3), (12, 0x44), (15, 8)], budget := 256 })], st.words := [(0, 0xB40008000)] }
def w70 : State := { live with pa.porters := tset {} live.pa.porters 11 { state := .active, exec := 1 }, pa.runs := [(23, some { event := 0x2001, entryPc := 4, fn := 1, order := 5, budget := 256 })], st.words := [(0, 0xB40004000)] }
def w71 : State := { live with lg.ctxs := [(5, { state := .opened, folv := true })], pa.porters := tset {} live.pa.porters 11 { state := .active, exec := 1 }, pa.runs := [(23, some { event := 0x2001, entryPc := 4, fn := 1, order := 5, regs := [(1, 2), (3, 0x123), (5, 0x456), (7, 0x103), (8, 5), (10, 3), (12, 0x44), (15, 8)], budget := 256 })], st.words := [(0, 0xB80008000)] }
def w72 : State := { live with pa.porters := tset {} live.pa.porters 11 { state := .active, exec := 1 }, pa.runs := [(23, some { event := 0x2001, entryPc := 4, fn := 1, order := 5, budget := 256 })], st.words := [(0, 0xB80004000)] }
def w73 : State := { live with pa.porters := tset {} live.pa.porters 11 { state := .active, exec := 1 }, pa.runs := [(23, some { event := 0x2001, entryPc := 4, fn := 1, order := 5, regs := [(0, 0xFFF), (3, 5), (5, 0xFFF), (7, 0x7FF), (9, 0xABC), (11, 0xD), (13, 0x19), (15, 0x801)], budget := 256 })], st.words := [(0, 0xAD0000000)] }
def w74 : State := { live with pa.porters := tset {} live.pa.porters 11 { state := .active, exec := 1 }, pa.runs := [(23, some { event := 0x2001, entryPc := 4, fn := 1, order := 5, budget := 256 })], st.words := [(0, 0xB90000000)] }
def w75 : State := { live with pa.porters := tset {} live.pa.porters 11 { state := .active, exec := 1 }, pa.runs := [(23, some { event := 0x2001, entryPc := 4, fn := 1, order := 5, budget := 256 })], st.words := [(0, 0xBC0000000)] }
def w76 : State := { live with pa.porters := tset {} live.pa.porters 11 { state := .active, exec := 1 }, pa.runs := [(23, some { event := 0x2001, entryPc := 4, fn := 1, order := 5, budget := 256 })], st.words := [(0, 0xC00000000)] }
def w77 : State := { live with lt.entries := [(0x2001, { function := 1 })], pa.porters := tset {} live.pa.porters 11 { state := .active, exec := 1 }, pa.runs := [(23, some { event := 0x2001, entryPc := 4, fn := 1, order := 5, regs := [(0, 1), (1, 2), (3, 0x123), (5, 0x456), (7, 0x103), (10, 3), (12, 0x44), (15, 8)], budget := 256 })], st.words := [(0, 0xC00050000)] }
def w78 : State := { live with pa.porters := tset {} live.pa.porters 11 { state := .active, exec := 1 }, pa.runs := [(23, some { event := 0x2001, entryPc := 4, fn := 1, order := 5, regs := [(0, 0x100), (4, 2), (6, 0x789), (9, 2)], budget := 256 })], st.words := [(0, 0xD40000000)], cu.ports := [(1, { state := .active })], cu.route := 0x28, cu.peers := [(1, { granted := 8 })] }
def w79 : State := { live with pa.porters := tset {} live.pa.porters 11 { state := .active, exec := 1 }, pa.runs := [(23, some { event := 0x2001, entryPc := 4, fn := 1, order := 5, budget := 256 })], st.words := [(0, 0xD80000000)] }
def w80 : State := { live with pa.porters := tset {} live.pa.porters 11 { state := .active, exec := 1 }, pa.runs := [(23, some { event := 0x2001, entryPc := 4, fn := 1, order := 5, regs := [(1, 2), (3, 0x123), (5, 0x456), (7, 0x103), (8, 1), (9, 2), (11, 2), (14, 9)], budget := 256 })], st.words := [(0, 0xD80004000)] }
def w81 : State := { live with pa.porters := tset {} live.pa.porters 11 { state := .active, exec := 1 }, pa.runs := [(23, some { event := 0x2001, entryPc := 4, fn := 1, order := 5, budget := 256 })], st.words := [(0, 0xCC0000000)] }
def w82 : State := { live with pa.porters := tset {} live.pa.porters 11 { state := .active, exec := 1 }, pa.runs := [(23, some { event := 0x2001, entryPc := 4, fn := 1, order := 5, regs := [(0, 0x100), (4, 2), (6, 0x789), (9, 2)], budget := 256 })], st.words := [(0, 0xCC0000000)] }
def w83 : State := { live with pa.porters := tset {} live.pa.porters 11 { state := .active, exec := 1 }, pa.runs := [(23, some { event := 0x2001, entryPc := 4, fn := 1, order := 5, regs := [(1, 2), (3, 0x123), (5, 0x456), (7, 0x103), (8, 3), (10, 3), (12, 0x44), (15, 8)], budget := 256 })], st.words := [(0, 0xD00008000)], fm.fns := [(1, { nqN := 1, queues := [(3, { enable := true, logsize := 4, prod := 3 })] })] }
def w84 : State := { live with pa.porters := tset {} live.pa.porters 11 { state := .active, exec := 1 }, pa.runs := [(23, some { event := 0x2001, entryPc := 4, fn := 1, order := 5, budget := 256 })], st.words := [(0, 0xD00000000)] }
def w85 : State := { live with pa.porters := tset {} live.pa.porters 11 { state := .active, exec := 1 }, pa.runs := [(23, some { event := 0x2001, entryPc := 4, fn := 1, order := 5, budget := 256 })], st.words := [(0, 0xC40004000)] }
def w86 : State := { live with pa.porters := tset {} live.pa.porters 11 { state := .active, exec := 1 }, pa.runs := [(23, some { event := 0x2001, entryPc := 4, fn := 1, order := 5, budget := 256 })], st.words := [(0, 0xC80000000)] }
def w87 : State := { live with pa.porters := tset {} live.pa.porters 11 { state := .active, exec := 1 }, pa.runs := [(23, some { event := 0x2001, entryPc := 4, fn := 1, order := 5, budget := 256 })], st.words := [(0, 0xEC0004000)] }
def w88 : State := { live with pa.porters := tset {} live.pa.porters 11 { state := .active, exec := 1 }, pa.runs := [(23, some { event := 0x2001, entryPc := 4, fn := 1, order := 5, budget := 256 })], st.words := [(0, 0xF40000000)] }
def w89 : State := { live with pa.porters := tset {} live.pa.porters 11 { state := .active, exec := 1 }, pa.runs := [(23, some { event := 0x2001, entryPc := 4, fn := 1, order := 5, budget := 256 })], st.words := [(0, 0xF80000000)] }
def w90 : State := { live with pa.porters := tset {} live.pa.porters 11 { state := .active, exec := 1 }, pa.runs := [(23, some { event := 0x2001, entryPc := 4, fn := 1, order := 5, budget := 256 })], st.words := [(0, 0xDC0000000)] }
def w91 : State := { live with pa.porters := tset {} live.pa.porters 11 { state := .active, exec := 1 }, pa.runs := [(23, some { event := 0x2001, entryPc := 4, fn := 1, order := 5, budget := 256 })], st.words := [(0, 0xDC0004000)], gb.enable := true, gb.logEn := true, gb.lastTime := some 1 }
def w92 : State := { live with pa.porters := tset {} live.pa.porters 11 { state := .active, exec := 1 }, pa.runs := [(23, some { event := 0x2001, entryPc := 4, fn := 1, order := 5, budget := 256 })], st.words := [(0, 0xE80000000)] }
def w93 : State := { live with pa.porters := tset {} live.pa.porters 11 { state := .active, exec := 1 }, pa.runs := [(23, some { event := 0x2001, entryPc := 4, fn := 1, order := 5, budget := 256 })], st.words := [(0, 0xE80000000)], cf.ready := true, cf.pool := [1] }
def w94 : State := { live with pa.porters := tset {} live.pa.porters 11 { state := .active, exec := 1 }, pa.runs := [(23, some { event := 0x2001, entryPc := 4, fn := 1, order := 5, budget := 256 })], st.words := [(0, 0xE40000000)] }
def w95 : State := { live with pa.runs := [(22, some { event := 0x2001, entryPc := 4, fn := 1, order := 5, phase := .fwait 1, pc := 5, regs := [(0, 3), (1, 4), (2, 5)], budget := 256, ownPay := 0x55AA55AA5 })] }
def w96 : State := { live with pa.porters := tset {} live.pa.porters 11 { state := .active, exec := 1 }, pa.runs := [(23, some { event := 0x2001, entryPc := 4, fn := 1, order := 5, budget := 256 })], st.words := [(0, 0x780000000)] }
def w97 : State := { live with pa.porters := tset {} live.pa.porters 11 { state := .active, exec := 1 }, pa.runs := [(23, some { event := 0x2001, entryPc := 4, fn := 1, order := 5, budget := 256 })], st.words := [(0, 0xE00000000)] }
def w98 : State := { live with lt.entries := [(0x2001, { state := .posted })], pa.runs := [(22, some { event := 0x2001, entryPc := 4, fn := 1, order := 5, phase := .commitDone, pc := 5, regs := [(0, 3), (1, 4), (2, 5)], budget := 256, ownPay := 0x55AA55AA5 })] }
def w99 : State := { live with pa.runs := [(22, some { event := 0x2001, entryPc := 4, fn := 1, order := 5, phase := .commitFence, pc := 5, regs := [(0, 3), (1, 4), (2, 5)], budget := 256, ownPay := 0x55AA55AA5 })] }
def w100 : State := { live with lt.entries := [(0x2001, { state := .posted, run := true })], pa.runs := [(22, some { event := 0x2001, entryPc := 4, fn := 1, order := 5, pc := 5, regs := [(0, 3), (1, 4), (2, 5)], budget := 256, ownPay := 0x55AA55AA5 })], pa.serialQ := [⟨2, 1, 0⟩], st.words := [(0, 0xF40000000)] }
def w101 : State := { live with tg.log := { valid := true } }
def w102 : State := { live with tg.gate := .closed }
def w103 : State := { live with hp.responses := [⟨3, .ok, []⟩] }
def w104 : State := { live with st.sealed := false }
def w105 : State := { live with lt.entries := [(0xC45, { state := .posted })], fm.fns := [(1, { state := .inService, lodgBase := 8, lodgN := 1 })] }
def w106 : State := { live with lt.entries := [(0xC45, { state := .heldJoin })], fm.fns := [(1, { state := .inService, lodgBase := 8, lodgN := 1 })] }
def w107 : State := { live with lt.entries := [(0xC45, { state := .posted, mask := true })], fm.fns := [(1, { state := .inService, lodgBase := 8, lodgN := 1 })] }
def w108 : State := { live with lt.entries := [(0xC45, { mask := true })], fm.fns := [(1, { state := .inService, lodgBase := 8, lodgN := 1 })] }
def w109 : State := { live with mi.nextStamp := 9, mi.postings := [⟨.function 1, 4, some 0xC44⟩] }
def w110 : State := { live with lt.entries := [(0xC40, { state := .posted })], fm.fns := [(1, { state := .inService, lodgBase := 8, lodgN := 1 })] }
def w111 : State := { live with mi.fences := [⟨1, 3, 0⟩] }
def w112 : State := { live with lg.ctxs := [(35, { state := .opened, armed := true })], fm.fns := [(1, { state := .inService, ledgBase := 2, ledgN := 2 })] }
def w113 : State := { live with lg.ctxs := [(35, { state := .opened, armed := true, keyOne := true })], fm.fns := [(1, { state := .inService, ledgBase := 2, ledgN := 2 })] }
def w114 : State := { live with lg.ctxs := [(35, { state := .opened, armed := true, keyOne := true, count := 2 })], fm.fns := [(1, { state := .inService, ledgBase := 2, ledgN := 2 })] }
def w115 : State := { live with mi.channels := [(0, { held := some 0x5A5A500440 })] }
def w116 : State := { live with lt.entries := [(0x440, { state := .posted })] }
def w117 : State := { live with lt.entries := [(0x440, { state := .posted })], mi.channels := [(0, { held := some 0x5A5A500440 })] }
def w118 : State := { live with mi.channels := [(5, { ack := true })] }
def w119 : State := { live with lt.entries := [(64, { state := .heldJoin })] }
def w120 : State := { live with wf.pend := 0x81 }
def w121 : State := { live with lt.srcPend := [(1, some 5)] }
def w122 : State := { live with lt.entries := [(1, { state := .posted })] }
def w123 : State := { live with lg.ctxs := [(7, { state := .opened })] }
def w124 : State := { live with lt.entries := [(0x500, { state := .offered })], lt.side := [(0x500, { placed := some 3 })], rn.targets := [(3, { enable := true, front := [0x500], offered := some 0x500 })] }
def w125 : State := { live with ts.dloops := [(1, { en := true, target := 3 })] }
def w126 : State := { live with lt.entries := [(0x500, { state := .claimed })], lt.side := [(0x500, { holder := some 3 })], rn.targets := [(3, { held := [⟨0x500, 0x100, 5, false⟩] })] }
def w127 : State := { live with lt.entries := [(0x500, { state := .offered })], lt.side := [(0x500, { placed := some 3 })], rn.targets := [(3, { front := [0x500], offered := some 0x500 })] }
def w128 : State := { live with rn.heldPl := [⟨0x500, []⟩] }
def w129 : State := { live with rn.targets := [(3, { offered := some 0x500, offerLim := 7 })] }
def w130 : State := { live with rn.targets := [(3, { offered := some 0x500, offerLim := 7 })], rn.offerQ := (List.replicate 128 ⟨1, false, 2, true, false, 0⟩) }
def w131 : State := { live with lt.side := [(0x500, { holder := some 3 })], rn.targets := [(3, { held := [⟨0x500, 0x100, 5, false⟩] })] }
def w132 : State := { live with lt.side := [(0x500, { holder := some 3 })], rn.targets := [(3, { held := [⟨0x500, 0x100, 5, false⟩] })], rn.svcQ := (List.replicate 128 ⟨1, false, 2, true, false, 0⟩) }
def w133 : State := { live with rn.targets := [(3, { offered := some 0x500, offerAt := 0x100 })], rn.heldOff := [⟨0x500, 3, 0x100⟩] }
def w134 : State := { live with rn.heldOff := [⟨0x500, 3, 0x100⟩] }
def w135 : State := { live with rn.targets := [(3, { held := [⟨0x500, 0x100, 5, false⟩] })], rn.heldSvc := [⟨0x500, 3, 0x100⟩] }
def w136 : State := { live with lg.ctxs := [(7, { state := .opened, dlv := true, deadline := 0x12345678A, curve := 5, step := 1 })], lg.curves := [(42, { slack := 2, valid := true })] }
def w137 : State := { live with lg.ctxs := [(7, { state := .opened, dlv := true, boostEnd := true })] }
def w138 : State := { live with lg.ctxs := [(7, { state := .opened, keyOne := true, winsel := 1 })], lg.keywin := [(1, 0x100)] }
def w139 : State := { live with lg.ctxs := [(7, { dlv := true, curve := 5, step := 1 })], lg.curves := [(42, { valid := true })] }
def w140 : State := { live with lg.ctxs := [(7, { dlv := true })] }
def w141 : State := { live with lg.ctxs := [(7, { dlv := true })], lg.expQ := (List.replicate 256 ⟨1, 0, 0, false, true, true, false⟩) }
def w142 : State := { live with lg.ctxs := [(7, { keyOne := true, winsel := 1 })], lg.keywin := [(1, 0x100)] }
def w143 : State := { live with lg.heldExp := [7] }
def w144 : State := { live with lg.heldWin := [(7, true)] }
def w145 : State := { live with lg.heldWin := [(7, false)] }
def w146 : State := { live with lt.entries := [(0x500, { state := .heldCurfew })], cf.holds := [⟨0x500, 0x64, some 3, false, 2, 4⟩] }
def w147 : State := { live with cf.ready := true }
def w148 : State := { live with cf.jreq := true }
def w149 : State := { live with cf.ready := true, cf.equalRun := 3 }
def w150 : State := { live with lt.dispatch := [(3, [0x503])] }
def w151 : State := { live with gl.hold := true }
def w152 : State := { live with lt.entries := [(0x500, { state := .posted, entryPc := 5 })], pa.porters := [(10, { state := .active, task0 := some 0x500 })], st.words := [(5, 0xF40000000)] }
def w153 : State := { live with pa.queues := [(3, { tasks := [0x500, 0x503] })] }
def w154 : State := { live with ab.waits := [⟨0, 3, none, 2, 0x123000000, false, 4⟩] }
def w155 : State := { live with pa.porters := [(16, { switched := some 1 })], pa.runs := [(33, some { event := 9, entryPc := 4, fn := 1, order := 5, pc := 4 })] }
def w156 : State := { live with ab.holds := [(0, some ⟨7, none, 2, 0x123400000⟩)] }
def w157 : State := { live with pa.porters := [] }
def w158 : State := { live with st.sealing := true }
def w159 : State := { live with st.bad := [(2, 9)] }
def w160 : State := { live with st.bad := [(0, 9), (1, 9), (2, 9), (4, 9), (5, 9), (6, 9), (7, 9), (8, 9), (9, 9), (10, 9), (11, 9), (12, 9), (13, 9), (14, 9), (15, 9)] }
def w161 : State := { live with st.reloading := 8 }
def w162 : State := { live with fm.fns := [], fm.arg2 := 0xABC03005 }
def w163 : State := { live with fm.arg2 := 0xABC03005 }
def w164 : State := { live with fm.busy := true }
def w165 : State := { live with pa.runs := [(1, some { event := 9, entryPc := 4, fn := 1, order := 5, pc := 4 })] }
def w166 : State := { live with fm.fns := [(1, { state := .frozen })] }
def w167 : State := { live with fm.drain := some ⟨1, false, .inService, 0⟩ }
def w168 : State := { live with fm.drain := some ⟨1, true, .inService, 0⟩ }
def w169 : State := { live with fm.fns := [(1, { state := .saving })], fm.segReady := true, fm.mig := some ⟨true, 1, 0x1F4, imageHead, 0, none⟩ }
def w170 : State := { live with fm.fns := [(1, { state := .saving })], fm.migFn := 1, fm.segReady := true, fm.last := true, fm.mig := some ⟨true, 1, 0x1F4, imageHead, 64, none⟩ }
def w171 : State := { live with fm.fns := [(1, { state := .saving })], fm.mig := some ⟨true, 1, 0x1F4, imageHead, 0, none⟩ }
def w172 : State := { live with fm.mig := some ⟨true, 1, 0x1F4, imageHead, 0, none⟩ }
def w173 : State := { live with fm.fns := [(1, { lodgN := 1, ledgN := 2, nqN := 1, vecN := 1 })], fm.mig := some ⟨false, 1, 0, imageVec, 88, some 100⟩ }
def w174 : State := { live with fm.fns := [(1, { lodgN := 1, ledgN := 2, nqN := 1, vecN := 1 })], fm.mig := some ⟨false, 1, 0, imageVec, 64, some 100⟩ }
def w175 : State := { live with fm.mig := some ⟨false, 1, 0, imageHead, 64, some 100⟩ }
def w176 : State := { live with fm.fns := [(1, { state := .inService, vectors := [(2, { addr := 0x1007, data := 9, ctl := 0, pending := true })] })] }
def w177 : State := { live with fm.fns := [(1, { state := .inService, nqN := 1, queues := [(0, { base := 0x1000, prod := 3, cons := 1 }), (1, { base := 0x1000, enable := true, logsize := 4, prod := 3, cons := 0xFFFE })] })] }
def w178 : State := { live with ep.queue := [⟨false, 1, 0x40, 0x123, 0, none, none⟩] }
def w179 : State := { live with np.pswEn := 0 }
def w180 : State := { live with ep.outstanding := [(3, ⟨false, 1, 0x40, 0x123, 0, none, none⟩)] }
def w181 : State := { live with ep.outstanding := [(3, ⟨false, 1, 0x40, 0x123, 0, none, none⟩)], ep.logValid := true }
def w182 : State := { live with tg.regions := [(3, { valid := true, read := true, fnAny := true, initAny := true, sizeLog := 0xC, base := 0x800 })] }
def w183 : State := { live with tg.check := some [(3, { valid := true, read := true, fnAny := true, initAny := true, sizeLog := 0xC, base := 0x800 }), (4, { valid := true, read := true, fnAny := true, initAny := true, sizeLog := 0xC, base := 0x880 })] }
def w184 : State := { live with tg.check := some [(3, { valid := true, read := true, fnAny := true, initAny := true, sizeLog := 0xC, base := 0x800 }), (4, { valid := true, read := true, fnAny := true, initAny := true, sizeLog := 0xD, base := 0x800 })] }
def w185 : State := { live with cu.ports := [(0, { state := .active, replayAt := some 0, buffer := [⟨7, .data false [1, 2]⟩, ⟨8, .link 0x4030101⟩] })] }
def w186 : State := { live with cu.ports := [(0, { state := .active, reqQ := [1, 2, 3, 4, 5, 6, 7, 8, 9] })] }
def w187 : State := { live with cu.ports := [(0, { state := .active })] }
def w188 : State := { live with cu.ports := [(3, { state := .retrain })] }
def w189 : State := { live with cu.ports := [(0, { blameThr := 0, corrThr := 0, state := .active })] }
def w190 : State := { live with cu.ports := [(0, { blameThr := 0, corrThr := 0, state := .active, width := 4, map := 0xF, rxExp := 5, lanes := [(0, { corr := 3, blame := 1, locked := true, rxKey := 5, txKey := 0x4D }), (1, { corr := 3, blame := 1, locked := true, rxKey := 6, txKey := 0x4D }), (2, { corr := 3, blame := 1, locked := true, rxKey := 7, txKey := 0x4D }), (3, { corr := 3, blame := 1, locked := true, rxKey := 8, txKey := 0x4D }), (4, { corr := 3, blame := 1, locked := true, rxKey := 9, txKey := 0x4D })] })] }
def w191 : State := { live with cu.ports := [(0, { blameThr := 0, corrThr := 0, state := .active, width := 4, map := 0xF, lanes := [(0, { corr := 3, blame := 1, locked := true, rxKey := 5, txKey := 0x4D }), (1, { corr := 3, blame := 1, locked := true, rxKey := 6, txKey := 0x4D }), (2, { corr := 3, blame := 1, locked := true, rxKey := 7, txKey := 0x4D }), (3, { corr := 3, blame := 1, locked := true, rxKey := 8, txKey := 0x4D }), (4, { corr := 3, blame := 1, locked := true, rxKey := 9, txKey := 0x4D })] })] }
def w192 : State := { live with cu.ports := [(0, { blameThr := 0, corrThr := 0, state := .active, width := 4, map := 0xF, rxExp := 5, buffer := [⟨7, .data false [1, 2]⟩, ⟨8, .link 0x4030101⟩], lanes := [(0, { corr := 3, blame := 1, locked := true, rxKey := 5, txKey := 0x4D }), (1, { corr := 3, blame := 1, locked := true, rxKey := 6, txKey := 0x4D }), (2, { corr := 3, blame := 1, locked := true, rxKey := 7, txKey := 0x4D }), (3, { corr := 3, blame := 1, locked := true, rxKey := 8, txKey := 0x4D }), (4, { corr := 3, blame := 1, locked := true, rxKey := 9, txKey := 0x4D })] })] }
def w193 : State := { live with cu.ports := [(0, { state := .active, buffer := [⟨7, .data false [1, 2]⟩, ⟨8, .link 0x4030101⟩] })] }
def w194 : State := { live with cu.ports := [(0, { state := .active, tmoRun := 7, buffer := [⟨7, .data false [1, 2]⟩, ⟨8, .link 0x4030101⟩] })] }
def w195 : State := { live with cu.ports := [(0, { state := .active, proposal := some ⟨true, some 8⟩ })] }
def w196 : State := { live with cu.ports := [(0, { state := .active, parkSeq := some 3 })] }
def w197 : State := { live with cu.ports := [(0, { state := .active, proposal := some ⟨false, none⟩ })] }
def w198 : State := { live with cu.ports := [(0, { state := .park, kept := true })] }
def w199 : State := { live with cu.ports := [(0, { state := .detect })] }
def w200 : State := { live with cu.ports := [(0, { state := .eq })] }
def w201 : State := { live with cu.ports := [(1, { state := .eq, kindFull := true })] }
def w202 : State := { live with cu.ports := [(0, { state := .align })] }
def w203 : State := { live with cu.ports := [(0, { state := .align, peerValid := true })] }
def w204 : State := { live with cu.ports := [(0, { state := .align, peerIndex := 1, peerValid := true })] }
def w205 : State := { live with np.state := .nap }
def w206 : State := { live with cu.ports := [(3, { state := .retrain, graded := 0x1F, peerGood := 0x1F, peerMaxw := 4 })] }
def w207 : State := { live with cu.ports := [(3, { state := .retrain, graded := 0x1F, peerGood := 0x1F, peerMaxw := 4, lanes := [(0, { corr := 3, blame := 1, locked := true, lockRun := 3, rxKey := 5, txKey := 0x4D }), (1, { corr := 3, blame := 1, locked := true, lockRun := 3, rxKey := 6, txKey := 0x4D }), (2, { corr := 3, blame := 1, locked := true, lockRun := 3, rxKey := 7, txKey := 0x4D }), (3, { corr := 3, blame := 1, locked := true, lockRun := 3, rxKey := 8, txKey := 0x4D }), (4, { corr := 3, blame := 1, locked := true, lockRun := 3, rxKey := 9, txKey := 0x4D })] })] }
def w208 : State := { live with cu.ports := [(3, { state := .retrain, graded := 0x1F, peerGood := 0x1F, peerMaxw := 4, lanes := [(0, { corr := 3, blame := 1, locked := true, lockRun := 3, rxKey := 5, txKey := 0x4D }), (1, { corr := 3, blame := 1, locked := true, lockRun := 3, rxKey := 6, txKey := 0x4D }), (2, { corr := 3, blame := 1, locked := true, lockRun := 3, rxKey := 7, txKey := 0x4D }), (3, { corr := 3, blame := 1, locked := true, lockRun := 3, rxKey := 8, txKey := 0x4D }), (4, { corr := 3, blame := 1, locked := true, lockRun := 3, rxKey := 9, txKey := 0x4D })], ready := true })] }
def w209 : State := { live with cu.ports := [(0, { state := .align, graded := 0x1F, peerGood := 0x1F, peerMaxw := 4, peerIndex := 1, peerRev := 0x10, peerReady := true, peerValid := true, lanes := [(0, { corr := 3, blame := 1, locked := true, lockRun := 3, rxKey := 5, txKey := 0x4D }), (1, { corr := 3, blame := 1, locked := true, lockRun := 3, rxKey := 6, txKey := 0x4D }), (2, { corr := 3, blame := 1, locked := true, lockRun := 3, rxKey := 7, txKey := 0x4D }), (3, { corr := 3, blame := 1, locked := true, lockRun := 3, rxKey := 8, txKey := 0x4D }), (4, { corr := 3, blame := 1, locked := true, lockRun := 3, rxKey := 9, txKey := 0x4D })], ready := true, readyOut := true })] }
def w210 : State := { live with cu.ports := [(3, { state := .retrain, oldMap := 0xF, oldWidth := 4, graded := 0x1F, peerGood := 0x1F, peerMaxw := 4, peerReady := true, lanes := [(0, { corr := 3, blame := 1, locked := true, lockRun := 3, rxKey := 5, txKey := 0x4D }), (1, { corr := 3, blame := 1, locked := true, lockRun := 3, rxKey := 6, txKey := 0x4D }), (2, { corr := 3, blame := 1, locked := true, lockRun := 3, rxKey := 7, txKey := 0x4D }), (3, { corr := 3, blame := 1, locked := true, lockRun := 3, rxKey := 8, txKey := 0x4D }), (4, { corr := 3, blame := 1, locked := true, lockRun := 3, rxKey := 9, txKey := 0x4D })], ready := true, readyOut := true })] }
def w211 : State := { live with cu.ports := [(0, { state := .active, graded := 0x1F, lanes := [(0, { corr := 3, blame := 1, locked := true, lockRun := 3, rxKey := 5, txKey := 0x4D }), (1, { corr := 3, blame := 1, locked := true, lockRun := 3, rxKey := 6, txKey := 0x4D }), (2, { corr := 3, blame := 1, locked := true, lockRun := 3, rxKey := 7, txKey := 0x4D }), (3, { corr := 3, blame := 1, locked := true, lockRun := 3, rxKey := 8, txKey := 0x4D }), (4, { corr := 3, blame := 1, locked := true, lockRun := 3, rxKey := 9, txKey := 0x4D })] })] }
def w212 : State := { live with cu.ports := [(0, { state := .active, map := 0xF })] }
def w213 : State := { live with cu.ports := [(2, { state := .park, kept := true })] }
def w214 : State := { live with cu.ports := [(2, { state := .park })], np.state := .nap, np.target := 1 }
def w215 : State := { live with cu.ports := [(0, { wakeOut := some 0x123400000 })] }
def w216 : State := { live with cu.ports := [(0, { enable := true, state := .active })] }
def w217 : State := { live with cu.ports := [(1, { state := .active, peerIndex := 1 })], cu.peers := [(1, { given := 8 })] }
def w218 : State := { live with cu.ports := [(1, { state := .active })] }
def w219 : State := { live with rn.visitors := [(0x1003, some ⟨1, 3, 0x777, 5, 0x14, 9, false, 2, .queued, none, 6⟩)], cu.ports := [(1, { state := .active, peerIndex := 1 })], cu.peers := [(1, { given := 8 })] }
def w220 : State := { live with rn.visitors := [(0x1004, some ⟨1, 4, 0x777, 5, 0x14, 9, false, 2, .claimed, some 5, 6⟩)], cu.ports := [(1, { state := .active, peerIndex := 1 })], cu.peers := [(1, { given := 8 })] }
def w221 : State := { live with rn.targets := [(5, { front := [0x21003] })], rn.visitors := [(0x1003, some ⟨1, 3, 0x777, 5, 0x14, 9, false, 2, .queued, none, 6⟩)], cu.ports := [(1, { state := .active, peerIndex := 1 })], cu.peers := [(1, { given := 8 })] }
def w222 : State := { live with lt.entries := [(0x450, { state := .queued })], lt.side := [(0x450, { room := some (1, 2) })], cu.ports := [(1, { state := .active, peerIndex := 1 })], cu.peers := [(1, { rooms := [(2, some ⟨0x450, false, false, true⟩), (3, some ⟨0x451, true, false, true⟩), (4, some ⟨0x452, false, false, true⟩), (5, some ⟨0x453, false, false, true⟩)] })] }
def w223 : State := { live with lt.entries := [(0x451, { state := .offered })], lt.side := [(0x451, { room := some (1, 3) })], cu.ports := [(1, { state := .active, peerIndex := 1 })], cu.peers := [(1, { rooms := [(2, some ⟨0x450, false, false, true⟩), (3, some ⟨0x451, true, false, true⟩), (4, some ⟨0x452, false, false, true⟩), (5, some ⟨0x453, false, false, true⟩)] })] }
def w224 : State := { live with lt.entries := [(0x452, { state := .claimed })], lt.side := [(0x452, { room := some (1, 4) })], cu.ports := [(1, { state := .active, peerIndex := 1 })], cu.peers := [(1, { rooms := [(2, some ⟨0x450, false, false, true⟩), (3, some ⟨0x451, true, false, true⟩), (4, some ⟨0x452, false, false, true⟩), (5, some ⟨0x453, false, false, true⟩)] })] }
def w225 : State := { live with cu.ports := [(1, { state := .active, peerIndex := 1 })], cu.peers := [(1, { rooms := [(2, some ⟨0x450, false, false, true⟩), (3, some ⟨0x451, true, false, true⟩), (4, some ⟨0x452, false, false, true⟩), (5, some ⟨0x453, false, false, true⟩)] })] }
def w226 : State := { live with cu.ports := [(1, { state := .retrain })] }
def w227 : State := { live with cu.ports := [(1, { state := .active })], cu.pairEn := true, cu.pairPort := 1 }
def w228 : State := { live with cu.ports := [(1, { state := .active })], cu.pairEn := true, cu.pairPort := 1, cu.mirrorIn := [⟨0, 0x10020, 0, 0x7000000000123000012C000009801⟩] }
def w229 : State := { live with cu.ports := [(1, { state := .active })], cu.pairEn := true, cu.pairPort := 1, er.shadow := true }
def w230 : State := { live with cu.ports := [(1, { state := .active })], cu.pairEn := true, cu.pairPort := 1, cu.pair := .paired }
def w231 : State := { live with cu.ports := [(1, { state := .active })], cu.pairEn := true, cu.pairPort := 1, cu.pair := .paired, cu.mirrorQ := [[0x7000000000123000012C000009801]] }
def w232 : State := { live with cu.pairPort := 1, cu.pair := .paired }
def w233 : State := { live with cu.ports := [(1, { state := .retrain, oldMap := 0xF, oldWidth := 4, graded := 0x1F, peerGood := 0x1F, peerMaxw := 4, peerReady := true, lanes := [(0, { locked := true, lockRun := 3 }), (1, { locked := true, lockRun := 3 }), (2, { locked := true, lockRun := 3 }), (3, { locked := true, lockRun := 3 }), (4, { locked := true, lockRun := 3 })], ready := true, readyOut := true })], cu.pairEn := true, cu.pairPort := 1, cu.pair := .waiting }
def w234 : State := { live with cu.pair := .broken, cu.shEntries := [(0x10010, { state := .posted, run := true, priority := 9, function := 0x12C, payload := 0x123, version := 7 })] }
def w235 : State := { live with cf.holds := [⟨0x450, 5, some 3, false, 1, 0⟩] }
def w236 : State := { live with lt.entries := [(0x450, { state := .posted })], lt.side := [(0x450, { task := true })] }
def w237 : State := { live with lt.entries := [(0x451, { state := .posted })], lt.side := [(0x451, { task := true, taskSeen := true })] }
def w238 : State := { live with lt.side := [(0x450, { wait := true })] }
def w239 : State := { live with np.porst := false }
def w240 : State := { live with fm.fns := [], fm.busy := true }
def w241 : State := { live with lt.dispatch := [(3, [5])], fm.fns := [] }
def w242 : State := { live with np.state := .entering }
def w243 : State := { live with np.gated := [0xF], np.ret := 0x8000 }
def w244 : State := { live with np.ungateDue := 0x8021, np.pswEn := 0xFF7FDE }
def w245 : State := { live with np.state := .entering, np.target := 2, np.pswEn := 0x770000, np.pswGood := 0x770001, np.saved := true }
def w246 : State := { live with np.pswEn := 0xFFFF }
def w247 : State := { live with np.state := .entering, np.target := 1, np.pswEn := 0x770000, np.pswGood := 0x770001, np.saved := true }
def w248 : State := { live with np.state := .nap, np.alarmV := true }
def w249 : State := { live with np.state := .exiting, np.target := 1 }
def w250 : State := { live with np.idleSince := [(15, some 0)], np.trimEn := true }
def w251 : State := { live with ts.phase := .selftest }
def w252 : State := { live with cf.ready := true, ts.phase := .rngWait }
def w253 : State := { live with cf.kreq := true }
def w254 : State := { live with ts.phase := .rngWait }
def w255 : State := { live with ts.phase := .seeding }
def w256 : State := { live with np.zRun := true }
def w257 : State := { live with np.zRun := true, np.zMaker := true }
def w258 : State := { live with np.zIn := true, np.zHold := true }
def w259 : State := { live with np.zIn := true }
def w260 : State := { live with ts.loops := [(0, { running := true })] }
def w261 : State := { live with ts.loops := [(0, { depth := 3, pattern := true, running := true })] }
def w262 : State := { live with ts.loops := [(1, { respond := true })] }
def w263 : State := { live with ts.dloops := [(0, { en := true, claimed := some 0x450 })] }
def w264 : State := { live with lt.entries := [(0x450, { state := .offered })], lt.side := [(0x450, { placed := some 5 })], rn.targets := [(5, { front := [0x450], offered := some 0x450 })], ts.dloops := [(0, { en := true, target := 5 })] }
def w265 : State := { live with lt.entries := [(0x450, { state := .claimed })], lt.side := [(0x450, { holder := some 5 })], rn.targets := [(5, { held := [⟨0x450, 3, 9, false⟩] })], ts.dloops := [(0, { target := 5, claimed := some 0x450 })] }

/-! ### Every hypothesis of every statement can be met -/

/-- States and operands that meet the hypotheses of StepCarriesOutTheFrontCommand, clause by clause. -/
theorem test_meets_StepCarriesOutTheFrontCommand :
    (∃ (s : State), s.pending = []) ∧ (∃ (c : Instr) (l : List Instr) (s : State), s.pending = c :: l) :=
  ⟨⟨live, by decide +kernel⟩, ⟨.rngFailRise, [], { live with pending := [.rngFailRise] }, rfl⟩⟩

/-- States and operands that meet the hypotheses of EveryCommandKeepsTablesCanonical, clause by clause. -/
theorem test_meets_EveryCommandKeepsTablesCanonical :
    ∃ (c : Instr) (s : State) (t : State), s.Canonical ∧
        exec c s = Host.Outcome.next t :=
  ⟨.wireTransition 5 true, live, after (.wireTransition 5 true) live, canonical_of (by decide +kernel), rfl⟩

/-- States and operands that meet the hypotheses of SealedStoreNeverChanges, clause by clause. -/
theorem test_meets_SealedStoreNeverChanges :
    ∃ (c : Instr) (s : State) (t : State), s.st.sealed = true ∧
        c.clears = false ∧
        exec c s = Host.Outcome.next t :=
  ⟨.wireTransition 5 true, live, after (.wireTransition 5 true) live, by decide +kernel, by decide +kernel, rfl⟩

/-- States and operands that meet the hypotheses of LequinAddSubtract, clause by clause. -/
theorem test_meets_LequinAddSubtract :
    (∃ (s : State) (r : RunRef) (x : Run) (f : LqFields), s.Fetches r x 0 f ∧
        f.okFA = true ∧
        x.pc ≠ 4095) ∧
    (∃ (s : State) (r : RunRef) (x : Run) (f : LqFields), s.Fetches r x 1 f ∧
        f.okFA = true ∧
        x.pc ≠ 4095) ∧
    (∃ (s : State) (r : RunRef) (x : Run) (f : LqFields), s.Fetches r x 2 f ∧
        f.okFA = true ∧
        x.pc ≠ 4095) ∧
    (∃ (s : State) (r : RunRef) (x : Run) (f : LqFields), s.Fetches r x 3 f ∧
        f.okFA = true ∧
        x.pc ≠ 4095) ∧
    (∃ (s : State) (r : RunRef) (x : Run) (f : LqFields), s.Fetches r x 14 f ∧
        f.okFC = true ∧
        x.pc ≠ 4095) :=
  ⟨⟨w1, ⟨2, 1, 1⟩, { event := 0x2001, entryPc := 4, fn := 1, order := 5, budget := 256 }, ⟨false, false, 0, 0, 0, 4, 0⟩, fetches_of (by decide +kernel), by decide +kernel⟩,
    ⟨w2, ⟨2, 1, 1⟩, { event := 0x2001, entryPc := 4, fn := 1, order := 5, budget := 256 }, ⟨false, false, 0, 0, 0, 0, 0⟩, fetches_of (by decide +kernel), by decide +kernel⟩,
    ⟨w3, ⟨2, 1, 1⟩, { event := 0x2001, entryPc := 4, fn := 1, order := 5, budget := 256 }, ⟨false, false, 0, 0, 0, 0, 0⟩, fetches_of (by decide +kernel), by decide +kernel⟩,
    ⟨w4, ⟨2, 1, 1⟩, { event := 0x2001, entryPc := 4, fn := 1, order := 5, budget := 256 }, ⟨false, false, 0, 0, 0, 0, 0⟩, fetches_of (by decide +kernel), by decide +kernel⟩,
    ⟨w5, ⟨2, 1, 1⟩, { event := 0x2001, entryPc := 4, fn := 1, order := 5, budget := 256 }, ⟨false, false, 0, 0, 0, 0, 0⟩, fetches_of (by decide +kernel), by decide +kernel⟩⟩

/-- States and operands that meet the hypotheses of LequinLogicAndSelection, clause by clause. -/
theorem test_meets_LequinLogicAndSelection :
    (∃ (s : State) (r : RunRef) (x : Run) (f : LqFields), s.Fetches r x 4 f ∧
        f.okFA = true ∧
        x.pc ≠ 4095) ∧
    (∃ (s : State) (r : RunRef) (x : Run) (f : LqFields), s.Fetches r x 5 f ∧
        f.okFA = true ∧
        x.pc ≠ 4095) ∧
    (∃ (s : State) (r : RunRef) (x : Run) (f : LqFields), s.Fetches r x 6 f ∧
        f.okFA = true ∧
        x.pc ≠ 4095) ∧
    (∃ (s : State) (r : RunRef) (x : Run) (f : LqFields), s.Fetches r x 7 f ∧
        f.okFA = true ∧
        x.pc ≠ 4095) ∧
    (∃ (s : State) (r : RunRef) (x : Run) (f : LqFields), s.Fetches r x 15 f ∧
        f.okFC = true ∧
        x.pc ≠ 4095) ∧
    (∃ (s : State) (r : RunRef) (x : Run) (f : LqFields), s.Fetches r x 12 f ∧
        f.okFA = true ∧
        x.pc ≠ 4095) ∧
    (∃ (s : State) (r : RunRef) (x : Run) (f : LqFields), s.Fetches r x 13 f ∧
        f.okFA = true ∧
        x.pc ≠ 4095) :=
  ⟨⟨w6, ⟨2, 1, 1⟩, { event := 0x2001, entryPc := 4, fn := 1, order := 5, budget := 256 }, ⟨false, false, 0, 0, 0, 0, 0⟩, fetches_of (by decide +kernel), by decide +kernel⟩,
    ⟨w7, ⟨2, 1, 1⟩, { event := 0x2001, entryPc := 4, fn := 1, order := 5, budget := 256 }, ⟨false, false, 0, 0, 0, 0, 0⟩, fetches_of (by decide +kernel), by decide +kernel⟩,
    ⟨w8, ⟨2, 1, 1⟩, { event := 0x2001, entryPc := 4, fn := 1, order := 5, budget := 256 }, ⟨false, false, 0, 0, 0, 0, 0⟩, fetches_of (by decide +kernel), by decide +kernel⟩,
    ⟨w9, ⟨2, 1, 1⟩, { event := 0x2001, entryPc := 4, fn := 1, order := 5, budget := 256 }, ⟨false, false, 0, 0, 0, 0, 0⟩, fetches_of (by decide +kernel), by decide +kernel⟩,
    ⟨w10, ⟨2, 1, 1⟩, { event := 0x2001, entryPc := 4, fn := 1, order := 5, budget := 256 }, ⟨false, false, 0, 0, 0, 0, 0⟩, fetches_of (by decide +kernel), by decide +kernel⟩,
    ⟨w11, ⟨2, 1, 1⟩, { event := 0x2001, entryPc := 4, fn := 1, order := 5, budget := 256 }, ⟨false, false, 0, 0, 0, 0, 0⟩, fetches_of (by decide +kernel), by decide +kernel⟩,
    ⟨w12, ⟨2, 1, 1⟩, { event := 0x2001, entryPc := 4, fn := 1, order := 5, budget := 256 }, ⟨false, false, 0, 0, 0, 0, 0⟩, fetches_of (by decide +kernel), by decide +kernel⟩⟩

/-- States and operands that meet the hypotheses of LequinShifts, clause by clause. -/
theorem test_meets_LequinShifts :
    (∃ (s : State) (r : RunRef) (x : Run) (f : LqFields), s.Fetches r x 8 f ∧
        f.okFA = true ∧
        x.pc ≠ 4095) ∧
    (∃ (s : State) (r : RunRef) (x : Run) (f : LqFields), s.Fetches r x 9 f ∧
        f.okFA = true ∧
        x.pc ≠ 4095) ∧
    (∃ (s : State) (r : RunRef) (x : Run) (f : LqFields), s.Fetches r x 10 f ∧
        f.okFA = true ∧
        x.pc ≠ 4095) ∧
    (∃ (s : State) (r : RunRef) (x : Run) (f : LqFields), s.Fetches r x 11 f ∧
        f.okFA = true ∧
        x.pc ≠ 4095) :=
  ⟨⟨w13, ⟨2, 1, 1⟩, { event := 0x2001, entryPc := 4, fn := 1, order := 5, budget := 256 }, ⟨false, false, 0, 0, 0, 0, 0⟩, fetches_of (by decide +kernel), by decide +kernel⟩,
    ⟨w14, ⟨2, 1, 1⟩, { event := 0x2001, entryPc := 4, fn := 1, order := 5, budget := 256 }, ⟨false, false, 0, 0, 0, 0, 0⟩, fetches_of (by decide +kernel), by decide +kernel⟩,
    ⟨w15, ⟨2, 1, 1⟩, { event := 0x2001, entryPc := 4, fn := 1, order := 5, budget := 256 }, ⟨false, false, 0, 0, 0, 0, 0⟩, fetches_of (by decide +kernel), by decide +kernel⟩,
    ⟨w16, ⟨2, 1, 1⟩, { event := 0x2001, entryPc := 4, fn := 1, order := 5, budget := 256 }, ⟨false, false, 0, 0, 0, 0, 0⟩, fetches_of (by decide +kernel), by decide +kernel⟩⟩

/-- States and operands that meet the hypotheses of LequinMoves, clause by clause. -/
theorem test_meets_LequinMoves :
    (∃ (s : State) (r : RunRef) (x : Run) (f : LqFields), s.Fetches r x 16 f ∧
        LqFields.okMov f = true ∧
        x.pc ≠ 4095) ∧
    (∃ (s : State) (r : RunRef) (x : Run) (f : LqFields), s.Fetches r x 17 f ∧
        LqFields.okMovi f = true ∧
        x.pc ≠ 4095) ∧
    (∃ (s : State) (r : RunRef) (x : Run) (f : LqFields), s.Fetches r x 18 f ∧
        LqFields.okLdi24 f = true ∧
        x.pc ≠ 4095) ∧
    (∃ (s : State) (r : RunRef) (x : Run) (f : LqFields), s.Fetches r x 19 f ∧
        LqFields.okMovd f = true ∧
        x.pc ≠ 4095) ∧
    (∃ (s : State) (r : RunRef) (x : Run) (f : LqFields), s.Fetches r x 22 f ∧
        LqFields.okSel f = true ∧
        x.pc ≠ 4095) ∧
    (∃ (s : State) (r : RunRef) (x : Run) (f : LqFields), s.Fetches r x 21 f ∧
        f.okA = true ∧
        x.pc ≠ 4095) ∧
    (∃ (s : State) (r : RunRef) (x : Run) (f : LqFields), s.Fetches r x 23 f ∧
        LqFields.okBitf f = true ∧
        x.pc ≠ 4095) :=
  ⟨⟨w17, ⟨2, 1, 1⟩, { event := 0x2001, entryPc := 4, fn := 1, order := 5, budget := 256 }, ⟨false, false, 0, 0, 0, 0, 0⟩, fetches_of (by decide +kernel), by decide +kernel⟩,
    ⟨w18, ⟨2, 1, 1⟩, { event := 0x2001, entryPc := 4, fn := 1, order := 5, budget := 256 }, ⟨false, false, 0, 0, 0, 0, 0⟩, fetches_of (by decide +kernel), by decide +kernel⟩,
    ⟨w19, ⟨2, 1, 1⟩, { event := 0x2001, entryPc := 4, fn := 1, order := 5, budget := 256 }, ⟨false, true, 0, 0, 0, 0, 0⟩, fetches_of (by decide +kernel), by decide +kernel⟩,
    ⟨w20, ⟨2, 1, 1⟩, { event := 0x2001, entryPc := 4, fn := 1, order := 5, budget := 256 }, ⟨false, true, 0, 0, 0, 0, 0⟩, fetches_of (by decide +kernel), by decide +kernel⟩,
    ⟨w21, ⟨2, 1, 1⟩, { event := 0x2001, entryPc := 4, fn := 1, order := 5, budget := 256 }, ⟨false, false, 0, 0, 0, 0, 0⟩, fetches_of (by decide +kernel), by decide +kernel⟩,
    ⟨w22, ⟨2, 1, 1⟩, { event := 0x2001, entryPc := 4, fn := 1, order := 5, budget := 256 }, ⟨false, false, 0, 0, 0, 0, 0⟩, fetches_of (by decide +kernel), by decide +kernel⟩,
    ⟨w23, ⟨2, 1, 1⟩, { event := 0x2001, entryPc := 4, fn := 1, order := 5, budget := 256 }, ⟨false, false, 0, 0, 0, 0, 0x25⟩, fetches_of (by decide +kernel), by decide +kernel⟩⟩

/-- States and operands that meet the hypotheses of LequinSpecialRegisters, clause by clause. -/
theorem test_meets_LequinSpecialRegisters :
    (∃ (s : State) (r : RunRef) (x : Run) (f : LqFields), s.Fetches r x 20 f ∧
        f.only { d := true, k := true } = true ∧
        x.pc ≠ 4095 ∧
        f.k = 0) ∧
    (∃ (s : State) (r : RunRef) (x : Run) (f : LqFields), s.Fetches r x 20 f ∧
        f.only { d := true, k := true } = true ∧
        x.pc ≠ 4095 ∧
        f.k = 1) ∧
    (∃ (s : State) (r : RunRef) (x : Run) (f : LqFields), s.Fetches r x 20 f ∧
        f.only { d := true, k := true } = true ∧
        x.pc ≠ 4095 ∧
        f.k = 2) ∧
    (∃ (s : State) (r : RunRef) (x : Run) (f : LqFields), s.Fetches r x 20 f ∧
        f.only { d := true, k := true } = true ∧
        x.pc ≠ 4095 ∧
        f.k = 3) ∧
    (∃ (s : State) (r : RunRef) (x : Run) (f : LqFields), s.Fetches r x 20 f ∧
        f.only { d := true, k := true } = true ∧
        x.pc ≠ 4095 ∧
        f.k = 5) ∧
    (∃ (s : State) (r : RunRef) (x : Run) (f : LqFields), s.Fetches r x 20 f ∧
        f.only { d := true, k := true } = true ∧
        x.pc ≠ 4095 ∧
        f.k = 6) ∧
    (∃ (s : State) (r : RunRef) (x : Run) (f : LqFields), s.Fetches r x 60 f ∧
        f.only { d := true } = true ∧
        f.d.toNat ≤ 12 ∧
        x.pc ≠ 4095) ∧
    (∃ (s : State) (r : RunRef) (x : Run) (f : LqFields), s.Fetches r x 63 f ∧
        f.okFN = true ∧
        x.pc ≠ 4095) :=
  ⟨⟨w24, ⟨2, 1, 1⟩, { event := 0x2001, entryPc := 4, fn := 1, order := 5, budget := 256 }, ⟨false, false, 0, 0, 0, 0, 0⟩, fetches_of (by decide +kernel), by decide +kernel⟩,
    ⟨w25, ⟨2, 1, 1⟩, { event := 0x2001, entryPc := 4, fn := 1, order := 5, budget := 256 }, ⟨false, false, 0, 0, 0, 0, 1⟩, fetches_of (by decide +kernel), by decide +kernel⟩,
    ⟨w26, ⟨2, 1, 1⟩, { event := 0x2001, entryPc := 4, fn := 1, order := 5, budget := 256 }, ⟨false, false, 0, 0, 0, 0, 2⟩, fetches_of (by decide +kernel), by decide +kernel⟩,
    ⟨w27, ⟨2, 1, 1⟩, { event := 0x2001, entryPc := 4, fn := 1, order := 5, budget := 256 }, ⟨false, false, 0, 0, 0, 0, 3⟩, fetches_of (by decide +kernel), by decide +kernel⟩,
    ⟨w28, ⟨2, 1, 1⟩, { event := 0x2001, entryPc := 4, fn := 1, order := 5, budget := 256 }, ⟨false, false, 0, 0, 0, 0, 5⟩, fetches_of (by decide +kernel), by decide +kernel⟩,
    ⟨w29, ⟨2, 1, 1⟩, { event := 0x2001, entryPc := 4, fn := 1, order := 5, budget := 256 }, ⟨false, false, 0, 0, 0, 0, 6⟩, fetches_of (by decide +kernel), by decide +kernel⟩,
    ⟨w30, ⟨2, 1, 1⟩, { event := 0x2001, entryPc := 4, fn := 1, order := 5, budget := 256 }, ⟨false, false, 0, 0, 0, 0, 0⟩, fetches_of (by decide +kernel), by decide +kernel⟩,
    ⟨w31, ⟨2, 1, 1⟩, { event := 0x2001, entryPc := 4, fn := 1, order := 5, budget := 256 }, ⟨false, false, 0, 0, 0, 0, 0⟩, fetches_of (by decide +kernel), by decide +kernel⟩⟩

/-- States and operands that meet the hypotheses of LequinTransfers, clause by clause. -/
theorem test_meets_LequinTransfers :
    (∃ (s : State) (r : RunRef) (x : Run) (f : LqFields), s.Fetches r x 24 f ∧
        f.okFT = true) ∧
    (∃ (s : State) (r : RunRef) (x : Run) (f : LqFields), s.Fetches r x 25 f ∧
        LqFields.okBc f = true ∧
        x.cond f.d = true) ∧
    (∃ (s : State) (r : RunRef) (x : Run) (f : LqFields), s.Fetches r x 25 f ∧
        LqFields.okBc f = true ∧
        x.cond f.d = false ∧
        x.pc ≠ 4095) ∧
    (∃ (s : State) (r : RunRef) (x : Run) (f : LqFields), s.Fetches r x 26 f ∧
        f.okFT = true ∧
        x.pc ≠ 4095 ∧
        x.stack.length < 4) ∧
    (∃ (s : State) (r : RunRef) (x : Run) (f : LqFields) (a : BitVec 12) (l : List (BitVec 12)), s.Fetches r x 27 f ∧
        f.okFN = true ∧
        x.stack = a :: l) ∧
    (∃ (s : State) (r : RunRef) (x : Run) (f : LqFields), s.Fetches r x 28 f ∧
        LqFields.okSwitch f = true ∧
        (x.w f.a.toNat).toNat < f.count) ∧
    (∃ (s : State) (r : RunRef) (x : Run) (f : LqFields), s.Fetches r x 28 f ∧
        LqFields.okSwitch f = true ∧
        f.count ≤ (x.w f.a.toNat).toNat ∧
        x.pc ≠ 4095) :=
  ⟨⟨w32, ⟨2, 1, 1⟩, { event := 0x2001, entryPc := 4, fn := 1, order := 5, budget := 256 }, ⟨false, false, 0, 0, 0, 0, 0⟩, fetches_of (by decide +kernel), by decide +kernel⟩,
    ⟨w33, ⟨2, 1, 1⟩, { event := 0x2001, entryPc := 4, fn := 1, order := 5, z := true, budget := 256 }, ⟨false, false, 0, 0, 0, 0, 0⟩, fetches_of (by decide +kernel), by decide +kernel⟩,
    ⟨w34, ⟨2, 1, 1⟩, { event := 0x2001, entryPc := 4, fn := 1, order := 5, budget := 256 }, ⟨false, false, 0, 0, 0, 0, 0⟩, fetches_of (by decide +kernel), by decide +kernel⟩,
    ⟨w35, ⟨2, 1, 1⟩, { event := 0x2001, entryPc := 4, fn := 1, order := 5, budget := 256 }, ⟨false, false, 0, 0, 0, 0, 0⟩, fetches_of (by decide +kernel), by decide +kernel⟩,
    ⟨w36, ⟨2, 1, 1⟩, { event := 0x2001, entryPc := 4, fn := 1, order := 5, stack := [5, 6], budget := 0xFFF }, ⟨false, false, 0, 0, 0, 0, 0⟩, 5, [6], fetches_of (by decide +kernel), by decide +kernel⟩,
    ⟨w37, ⟨2, 1, 1⟩, { event := 0x2001, entryPc := 4, fn := 1, order := 5, budget := 256 }, ⟨false, false, 0, 0, 6, 0, 0⟩, fetches_of (by decide +kernel), by decide +kernel⟩,
    ⟨w38, ⟨2, 1, 1⟩, { event := 0x2001, entryPc := 4, fn := 1, order := 5, regs := [(0, 0xFFF), (3, 5), (5, 0xFFF), (7, 0x7FF), (9, 0xABC), (11, 0xD), (13, 0x19), (15, 0x801)], budget := 256 }, ⟨false, false, 0, 0, 6, 0, 0⟩, fetches_of (by decide +kernel), by decide +kernel⟩⟩

/-- States and operands that meet the hypotheses of LequinBudget, clause by clause. -/
theorem test_meets_LequinBudget :
    ∃ (s : State) (r : RunRef) (x : Run) (f : LqFields), s.Fetches r x 29 f ∧
        LqFields.okBudget f = true ∧
        x.pc ≠ 4095 ∧
        x.steps + 1 < min x.budget (BitVec.toNat (if f.i = true then f.k else x.w f.a.toNat)) :=
  ⟨w39, ⟨2, 1, 1⟩, { event := 0x2001, entryPc := 4, fn := 1, order := 5, regs := [(0, 0xFFF), (3, 5), (5, 0xFFF), (7, 0x7FF), (9, 0xABC), (11, 0xD), (13, 0x19), (15, 0x801)], budget := 256 }, ⟨false, false, 0, 0, 0, 0, 0⟩, fetches_of (by decide +kernel), by decide +kernel⟩

/-- States and operands that meet the hypotheses of LequinTraps, clause by clause. -/
theorem test_meets_LequinTraps :
    (∃ (s : State) (r : RunRef) (x : Run) (f : LqFields), s.Canonical ∧
        s.mirrorOn = false ∧
        s.NoneWaits ∧
        s.Fetches r x 31 f ∧
        f.okFN = true) ∧
    (∃ (s : State) (r : RunRef) (x : Run) (f : LqFields), s.Canonical ∧
        s.mirrorOn = false ∧
        s.NoneWaits ∧
        s.stepping r = some x ∧
        s.copyBad r.cluster.toNat x.pc.toNat = false ∧
        s.copyWord r.cluster.toNat x.pc.toNat = lqWord 2 f ∧
        (f.okFA = false ∨ x.budget ≤ x.steps)) :=
  ⟨⟨w40, ⟨2, 1, 1⟩, { event := 0x2001, entryPc := 4, fn := 1, order := 5, budget := 256 }, ⟨false, false, 0, 0, 0, 0, 0⟩, canonical_of (by decide +kernel), by decide +kernel, noneWaits_of (by decide +kernel), fetches_of (by decide +kernel), by decide +kernel⟩,
    ⟨w41, ⟨2, 1, 1⟩, { event := 0x2001, entryPc := 4, fn := 1, order := 5, budget := 256 }, ⟨false, false, 0, 0, 0, 0, 1⟩, canonical_of (by decide +kernel), by decide +kernel, noneWaits_of (by decide +kernel), by decide +kernel⟩⟩

/-- States and operands that meet the hypotheses of TrapLeavesItsRecord, clause by clause. -/
theorem test_meets_TrapLeavesItsRecord :
    ∃ (s : State) (r : RunRef) (x : Run) (f : LqFields), s.Canonical ∧
        s.Calm ∧
        s.gb.enable = false ∧
        s.Fetches r x 31 f ∧
        f.okFN = true ∧
        x.event ≠ srcItinTrap ∧
        x.event ≠ srcStepTrap ∧
        x.event < nEntries ∧
        (s.entry x.event).state = EvState.posted ∧
        (s.entry x.event).run = true ∧
        (∀ (p : RunRef × Run), p ∈ s.allRuns → p.snd.event = x.event → p.snd.order ≤ x.order) ∧
        (s.entry srcItinTrap).state = EvState.idle ∧
        (s.entry srcItinTrap).direct = false ∧
        s.Unplaced srcItinTrap :=
  ⟨w42, ⟨2, 1, 1⟩, { event := 0x2001, entryPc := 4, fn := 1, order := 5, budget := 256 }, ⟨false, false, 0, 0, 0, 0, 0⟩, canonical_of (by decide +kernel), calm_of (by decide +kernel), by decide +kernel, fetches_of (by decide +kernel), by decide +kernel, by decide +kernel, by decide +kernel, by decide +kernel, by decide +kernel, by decide +kernel, by decide +kernel, by decide +kernel, by decide +kernel, unplaced_of (by decide +kernel)⟩

/-- States and operands that meet the hypotheses of LequinLoads, clause by clause. -/
theorem test_meets_LequinLoads :
    (∃ (s : State) (r : RunRef) (x : Run) (y : Run) (f : LqFields) (e : Nat) (t : State) (it : ReadItem), s.Fetches r x 32 f ∧
        LqFields.okLdl f = true ∧
        x.pc ≠ 4095 ∧
        x.eventA f = some e ∧
        s.Reads r x.counted (Item.entry e) y t it) ∧
    (∃ (s : State) (r : RunRef) (x : Run) (f : LqFields), s.Fetches r x 32 f ∧
        LqFields.okLdl f = true ∧
        x.pc ≠ 4095 ∧
        x.eventA f = none) ∧
    (∃ (s : State) (r : RunRef) (x : Run) (y : Run) (f : LqFields) (t : State) (it : ReadItem), s.Fetches r x 40 f ∧
        LqFields.okLdx f = true ∧
        x.pc ≠ 4095 ∧
        s.Reads r x.counted (Item.ctx (x.w f.a.toNat).toNat) y t it) :=
  ⟨⟨w43, ⟨2, 1, 1⟩, { event := 0x2001, entryPc := 4, fn := 1, order := 5, budget := 256 }, { event := 0x2001, entryPc := 4, fn := 1, order := 5, steps := 1, budget := 256, reads := [⟨.entry 0, 0, {}, {}⟩] }, ⟨false, false, 0, 0, 0, 4, 0⟩, 0, w43, ⟨.entry 0, 0, {}, {}⟩, fetches_of (by decide +kernel), by decide +kernel, by decide +kernel, by decide +kernel, reads_of (by decide +kernel)⟩,
    ⟨w44, ⟨2, 1, 1⟩, { event := 0x2001, entryPc := 4, fn := 1, order := 5, regs := [(1, 2), (3, 0x123), (5, 0x456), (7, 0x103), (9, 0x20), (12, 9)], budget := 256 }, ⟨false, false, 0, 0, 0, 4, 0⟩, fetches_of (by decide +kernel), by decide +kernel⟩,
    ⟨w45, ⟨2, 1, 1⟩, { event := 0x2001, entryPc := 4, fn := 1, order := 5, budget := 256 }, { event := 0x2001, entryPc := 4, fn := 1, order := 5, steps := 1, budget := 256, reads := [⟨.ctx 0, 0, {}, {}⟩] }, ⟨false, false, 0, 0, 0, 4, 0⟩, w45, ⟨.ctx 0, 0, {}, {}⟩, fetches_of (by decide +kernel), by decide +kernel, by decide +kernel, reads_of (by decide +kernel)⟩⟩

/-- States and operands that meet the hypotheses of EntryFieldsAreWindowFields, clause by clause. -/
theorem test_meets_EntryFieldsAreWindowFields :
    ∃ (it : ReadItem) (v : BitVec 12) (k : BitVec 12) (j : BitVec 12), k ∈ [1, 2, 3, 5, 6, 7, 8] ∧
        j ∈ [0, 1, 2, 3, 4, 5, 6, 7, 8, 9, 10] :=
  ⟨⟨.entry 3, 0xDF2, { mask := true, level := true, sensitive := true, direct := true, coalesce := true, activeLow := true, ctxv := true, run := true, priority := 0xDF2, target := 0x1C6, tmode := 2, function := 0x132, context := 0xAA6, cls := 2, payload := 0xBBF13DDF2, entryPc := 0xE54, version := 0xA2B, merges := 2 }, {}⟩, 0, 1, 0, by decide +kernel⟩

/-- States and operands that meet the hypotheses of LequinEntryStores, clause by clause. -/
theorem test_meets_LequinEntryStores :
    (∃ (s : State) (t : State) (r : RunRef) (x : Run) (y : Run) (f : LqFields) (e : Nat) (it : ReadItem), s.OnEntry r x 33 LqFields.okStl f e y t it ∧
        f.k ≠ 0 ∧
        e ≠ x.event ∧
        (it.entry.state = EvState.idle ∨ it.entry.state = EvState.parked) ∧
        t.setupFault (it.entry.withField f.k (x.w f.b.toNat)) = none) ∧
    (∃ (s : State) (t : State) (r : RunRef) (x : Run) (y : Run) (f : LqFields) (e : Nat) (it : ReadItem), s.OnEntry r x 33 LqFields.okStl f e y t it ∧
        f.k ≠ 0 ∧
        (e = x.event ∨ it.entry.state ≠ EvState.idle ∧ it.entry.state ≠ EvState.parked)) ∧
    (∃ (s : State) (t : State) (r : RunRef) (x : Run) (y : Run) (f : LqFields) (e : Nat) (it : ReadItem), s.OnEntry r x 34 LqFields.okCasl f e y t it ∧
        f.k ≠ 0 ∧
        it.field f.k ≠ x.w f.d.toNat) ∧
    (∃ (s : State) (t : State) (r : RunRef) (x : Run) (y : Run) (f : LqFields) (e : Nat) (it : ReadItem), s.OnEntry r x 34 LqFields.okCasl f e y t it ∧
        f.k ≠ 0 ∧
        it.field f.k = x.w f.d.toNat ∧
        e ≠ x.event ∧
        (it.entry.state = EvState.idle ∨ it.entry.state = EvState.parked) ∧
        t.setupFault (it.entry.withField f.k (x.w f.b.toNat)) = none) :=
  ⟨⟨w46, w46, ⟨2, 1, 1⟩, { event := 0x2001, entryPc := 4, fn := 1, order := 5, budget := 256 }, { event := 0x2001, entryPc := 4, fn := 1, order := 5, steps := 1, budget := 256, reads := [⟨.entry 0, 0, {}, {}⟩] }, ⟨false, false, 0, 0, 0, 0, 1⟩, 0, ⟨.entry 0, 0, {}, {}⟩, onEntry_of (by decide +kernel), by decide +kernel⟩,
    ⟨w47, w47, ⟨2, 1, 1⟩, { event := 0x2001, entryPc := 4, fn := 1, order := 5, regs := [(1, 2), (3, 0x123), (5, 0x456), (7, 0x103), (8, 1), (9, 2), (11, 2), (14, 9)], budget := 256 }, { event := 0x2001, entryPc := 4, fn := 1, order := 5, regs := [(1, 2), (3, 0x123), (5, 0x456), (7, 0x103), (8, 1), (9, 2), (11, 2), (14, 9)], steps := 1, budget := 256, reads := [⟨.entry 0x2001, 0, {}, {}⟩] }, ⟨false, false, 0, 0, 0, 4, 1⟩, 0x2001, ⟨.entry 0x2001, 0, {}, {}⟩, onEntry_of (by decide +kernel), by decide +kernel⟩,
    ⟨w48, w48, ⟨2, 1, 1⟩, { event := 0x2001, entryPc := 4, fn := 1, order := 5, regs := [(0, 1), (2, 3), (4, 2), (6, 0x789), (9, 2), (11, 2), (14, 9)], budget := 256 }, { event := 0x2001, entryPc := 4, fn := 1, order := 5, regs := [(0, 1), (2, 3), (4, 2), (6, 0x789), (9, 2), (11, 2), (14, 9)], steps := 1, budget := 256, reads := [⟨.entry 0x2000, 0, {}, {}⟩] }, ⟨false, false, 0, 0, 0, 4, 1⟩, 0x2000, ⟨.entry 0x2000, 0, {}, {}⟩, onEntry_of (by decide +kernel), by decide +kernel⟩,
    ⟨w49, w49, ⟨2, 1, 1⟩, { event := 0x2001, entryPc := 4, fn := 1, order := 5, budget := 256 }, { event := 0x2001, entryPc := 4, fn := 1, order := 5, steps := 1, budget := 256, reads := [⟨.entry 0, 0, {}, {}⟩] }, ⟨false, false, 0xD, 0, 0, 4, 1⟩, 0, ⟨.entry 0, 0, {}, {}⟩, onEntry_of (by decide +kernel), by decide +kernel⟩⟩

/-- States and operands that meet the hypotheses of LequinPosts, clause by clause. -/
theorem test_meets_LequinPosts :
    (∃ (s : State) (t : State) (r : RunRef) (x : Run) (y : Run) (f : LqFields) (e : Nat) (it : ReadItem), s.OnEntry r x 35 LqFields.okPost f e y t it ∧
        e ≠ x.event ∧
        1088 ≤ e ∧
        (it.entry.state ∈ [EvState.idle, EvState.parked, EvState.claimed] ∨ it.entry.state ∈ [EvState.posted, EvState.queued, EvState.offered, EvState.claimedRepost, EvState.heldCurfew] ∧ it.entry.coalesce = true ∧ BitVec.getLsbD f.k 1 = false ∧ t.mergeFull y e = false)) ∧
    (∃ (s : State) (t : State) (r : RunRef) (x : Run) (y : Run) (f : LqFields) (e : Nat) (it : ReadItem), s.OnEntry r x 35 LqFields.okPost f e y t it ∧
        e ≠ x.event ∧
        (e < 1088 ∨ it.entry.state ∈ [EvState.heldJoin, EvState.heldTwokey, EvState.faulted] ∨ it.entry.state ∈ [EvState.posted, EvState.queued, EvState.offered, EvState.claimedRepost, EvState.heldCurfew] ∧ ¬(it.entry.coalesce = true ∧ BitVec.getLsbD f.k 1 = false ∧ t.mergeFull y e = false))) ∧
    (∃ (s : State) (t : State) (r : RunRef) (x : Run) (y : Run) (f : LqFields) (e : Nat) (it : ReadItem), s.OnEntry r x 37 LqFields.okCoal f e y t it ∧
        1088 ≤ e ∧
        e ≠ x.event ∧
        (it.entry.state ∈ [EvState.idle, EvState.parked, EvState.claimed] ∨ it.entry.state ∈ [EvState.posted, EvState.queued, EvState.offered, EvState.claimedRepost, EvState.heldCurfew] ∧ t.mergeFull y e = false)) ∧
    (∃ (s : State) (t : State) (r : RunRef) (x : Run) (y : Run) (f : LqFields) (e : Nat) (it : ReadItem), s.OnEntry r x 37 LqFields.okCoal f e y t it ∧
        (e < 1088 ∨ e = x.event ∨ it.entry.state ∈ [EvState.heldJoin, EvState.heldTwokey, EvState.faulted])) :=
  ⟨⟨w50, w50, ⟨2, 1, 1⟩, { event := 0x2001, entryPc := 4, fn := 1, order := 5, regs := [(1, 2), (3, 0x123), (5, 0x456), (7, 0x103), (9, 2), (11, 2), (14, 9)], budget := 256 }, { event := 0x2001, entryPc := 4, fn := 1, order := 5, regs := [(1, 2), (3, 0x123), (5, 0x456), (7, 0x103), (9, 2), (11, 2), (14, 9)], steps := 1, budget := 256, reads := [⟨.entry 0x2000, 0, {}, {}⟩] }, ⟨false, false, 0, 0, 0, 4, 0⟩, 0x2000, ⟨.entry 0x2000, 0, {}, {}⟩, onEntry_of (by decide +kernel), by decide +kernel⟩,
    ⟨w51, w51, ⟨2, 1, 1⟩, { event := 0x2001, entryPc := 4, fn := 1, order := 5, budget := 256 }, { event := 0x2001, entryPc := 4, fn := 1, order := 5, steps := 1, budget := 256, reads := [⟨.entry 0, 0, {}, {}⟩] }, ⟨false, false, 0, 0, 0, 4, 0⟩, 0, ⟨.entry 0, 0, {}, {}⟩, onEntry_of (by decide +kernel), by decide +kernel⟩,
    ⟨w52, w52, ⟨2, 1, 1⟩, { event := 0x2001, entryPc := 4, fn := 1, order := 5, regs := [(1, 2), (3, 0x123), (5, 0x456), (7, 0x103), (9, 2), (11, 2), (14, 9)], budget := 256 }, { event := 0x2001, entryPc := 4, fn := 1, order := 5, regs := [(1, 2), (3, 0x123), (5, 0x456), (7, 0x103), (9, 2), (11, 2), (14, 9)], steps := 1, budget := 256, reads := [⟨.entry 0x2000, 0, {}, {}⟩] }, ⟨false, false, 0, 0, 0, 4, 0⟩, 0x2000, ⟨.entry 0x2000, 0, {}, {}⟩, onEntry_of (by decide +kernel), by decide +kernel⟩,
    ⟨w53, w53, ⟨2, 1, 1⟩, { event := 0x2001, entryPc := 4, fn := 1, order := 5, budget := 256 }, { event := 0x2001, entryPc := 4, fn := 1, order := 5, steps := 1, budget := 256, reads := [⟨.entry 0, 0, {}, {}⟩] }, ⟨false, false, 0, 0, 0, 4, 0⟩, 0, ⟨.entry 0, 0, {}, {}⟩, onEntry_of (by decide +kernel), by decide +kernel⟩⟩

/-- States and operands that meet the hypotheses of LequinCancelParkPriority, clause by clause. -/
theorem test_meets_LequinCancelParkPriority :
    (∃ (s : State) (t : State) (r : RunRef) (x : Run) (y : Run) (f : LqFields) (e : Nat) (it : ReadItem), s.OnEntry r x 36 LqFields.okPairA f e y t it ∧
        (e ≠ x.event ∨ x.ownEffect = none) ∧
        it.entry.state ∈ [EvState.posted, EvState.queued, EvState.offered, EvState.heldCurfew, EvState.parked, EvState.claimedRepost]) ∧
    (∃ (s : State) (t : State) (r : RunRef) (x : Run) (y : Run) (f : LqFields) (e : Nat) (it : ReadItem), s.OnEntry r x 36 LqFields.okPairA f e y t it ∧
        (e ≠ x.event ∨ x.ownEffect = none) ∧
        it.entry.state ∈ [EvState.idle, EvState.claimed, EvState.heldJoin, EvState.heldTwokey, EvState.faulted]) ∧
    (∃ (s : State) (t : State) (r : RunRef) (x : Run) (y : Run) (f : LqFields) (e : Nat) (it : ReadItem), s.OnEntry r x 38 LqFields.okPairA f e y t it ∧
        (e ≠ x.event ∨ x.ownEffect = none) ∧
        it.entry.state = EvState.posted) ∧
    (∃ (s : State) (t : State) (r : RunRef) (x : Run) (y : Run) (f : LqFields) (e : Nat) (it : ReadItem), s.OnEntry r x 38 LqFields.okPairA f e y t it ∧
        (e ≠ x.event ∨ x.ownEffect = none) ∧
        it.entry.state ≠ EvState.posted) ∧
    (∃ (s : State) (t : State) (r : RunRef) (x : Run) (y : Run) (f : LqFields) (e : Nat) (it : ReadItem), s.OnEntry r x 39 LqFields.okSetpri f e y t it ∧
        it.entry.ctxv = false ∧
        e ≠ x.event ∧
        it.entry.state ≠ EvState.faulted ∧
        (it.entry.direct = false ∨ (if f.i = true then f.k else x.w f.b.toNat) ≠ 0) ∧
        BitVec.toNat (if f.i = true then f.k else x.w f.b.toNat) ≤ (t.priCeil it.entry.function.toNat).toNat) ∧
    (∃ (s : State) (t : State) (r : RunRef) (x : Run) (y : Run) (f : LqFields) (e : Nat) (it : ReadItem), s.OnEntry r x 39 LqFields.okSetpri f e y t it ∧
        it.entry.ctxv = false ∧
        (e = x.event ∨ it.entry.state = EvState.faulted ∨ it.entry.direct = true ∧ (if f.i = true then f.k else x.w f.b.toNat) = 0 ∨ (t.priCeil it.entry.function.toNat).toNat < BitVec.toNat (if f.i = true then f.k else x.w f.b.toNat))) ∧
    (∃ (s : State) (t : State) (t' : State) (r : RunRef) (x : Run) (y : Run) (y' : Run) (f : LqFields) (e : Nat) (it : ReadItem) (c : ReadItem), s.OnEntry r x 39 LqFields.okSetpri f e y t it ∧
        it.entry.ctxv = true ∧
        t.Reads r y (Item.ctx it.entry.context.toNat) y' t' c ∧
        y'.effects.length < 16 ∧
        e ≠ x.event ∧
        it.entry.state ≠ EvState.faulted ∧
        (it.entry.direct = false ∨ (if c.ctx.state = CtxState.opened ∧ BitVec.toNat (if f.i = true then f.k else x.w f.b.toNat) < c.ctx.floor.toNat then c.ctx.floor else if f.i = true then f.k else x.w f.b.toNat) ≠ 0) ∧
        (if c.ctx.state = CtxState.opened ∧ BitVec.toNat (if f.i = true then f.k else x.w f.b.toNat) < c.ctx.floor.toNat then c.ctx.floor else if f.i = true then f.k else x.w f.b.toNat).toNat ≤ (t'.priCeil it.entry.function.toNat).toNat) :=
  ⟨⟨w54, w54, ⟨2, 1, 1⟩, { event := 0x2001, entryPc := 4, fn := 1, order := 5, regs := [(1, 2), (3, 0x123), (5, 0x456), (7, 0x103), (8, 1), (9, 2), (11, 2), (14, 9)], budget := 256 }, { event := 0x2001, entryPc := 4, fn := 1, order := 5, regs := [(1, 2), (3, 0x123), (5, 0x456), (7, 0x103), (8, 1), (9, 2), (11, 2), (14, 9)], steps := 1, budget := 256, reads := [⟨.entry 0x2001, 0, { state := .posted }, {}⟩] }, ⟨false, false, 0, 0, 0, 4, 0⟩, 0x2001, ⟨.entry 0x2001, 0, { state := .posted }, {}⟩, onEntry_of (by decide +kernel), by decide +kernel⟩,
    ⟨w55, w55, ⟨2, 1, 1⟩, { event := 0x2001, entryPc := 4, fn := 1, order := 5, budget := 256 }, { event := 0x2001, entryPc := 4, fn := 1, order := 5, steps := 1, budget := 256, reads := [⟨.entry 0, 0, {}, {}⟩] }, ⟨false, false, 0, 0, 0, 4, 0⟩, 0, ⟨.entry 0, 0, {}, {}⟩, onEntry_of (by decide +kernel), by decide +kernel⟩,
    ⟨w56, w56, ⟨2, 1, 1⟩, { event := 0x2001, entryPc := 4, fn := 1, order := 5, regs := [(1, 2), (3, 0x123), (5, 0x456), (7, 0x103), (8, 1), (9, 2), (11, 2), (14, 9)], budget := 256 }, { event := 0x2001, entryPc := 4, fn := 1, order := 5, regs := [(1, 2), (3, 0x123), (5, 0x456), (7, 0x103), (8, 1), (9, 2), (11, 2), (14, 9)], steps := 1, budget := 256, reads := [⟨.entry 0x2001, 0, { state := .posted }, {}⟩] }, ⟨false, false, 0, 0, 0, 4, 0⟩, 0x2001, ⟨.entry 0x2001, 0, { state := .posted }, {}⟩, onEntry_of (by decide +kernel), by decide +kernel⟩,
    ⟨w57, w57, ⟨2, 1, 1⟩, { event := 0x2001, entryPc := 4, fn := 1, order := 5, budget := 256 }, { event := 0x2001, entryPc := 4, fn := 1, order := 5, steps := 1, budget := 256, reads := [⟨.entry 0, 0, {}, {}⟩] }, ⟨false, false, 0, 0, 0, 4, 0⟩, 0, ⟨.entry 0, 0, {}, {}⟩, onEntry_of (by decide +kernel), by decide +kernel⟩,
    ⟨w58, w58, ⟨2, 1, 1⟩, { event := 0x2001, entryPc := 4, fn := 1, order := 5, budget := 256 }, { event := 0x2001, entryPc := 4, fn := 1, order := 5, steps := 1, budget := 256, reads := [⟨.entry 0, 0, {}, {}⟩] }, ⟨false, false, 0, 0, 0, 4, 0⟩, 0, ⟨.entry 0, 0, {}, {}⟩, onEntry_of (by decide +kernel), by decide +kernel⟩,
    ⟨w59, w59, ⟨2, 1, 1⟩, { event := 0x2001, entryPc := 4, fn := 1, order := 5, regs := [(1, 2), (3, 0x123), (5, 0x456), (7, 0x103), (8, 1), (9, 2), (11, 2), (14, 9)], budget := 256 }, { event := 0x2001, entryPc := 4, fn := 1, order := 5, regs := [(1, 2), (3, 0x123), (5, 0x456), (7, 0x103), (8, 1), (9, 2), (11, 2), (14, 9)], steps := 1, budget := 256, reads := [⟨.entry 0x2001, 0, {}, {}⟩] }, ⟨false, false, 0, 0, 0, 4, 0⟩, 0x2001, ⟨.entry 0x2001, 0, {}, {}⟩, onEntry_of (by decide +kernel), by decide +kernel⟩,
    ⟨w60, w60, w60, ⟨2, 1, 1⟩, { event := 0x2001, entryPc := 4, fn := 1, order := 5, regs := [(1, 2), (3, 0x123), (5, 0x456), (7, 0x103), (8, 6), (9, 2), (11, 2), (14, 9)], budget := 256 }, { event := 0x2001, entryPc := 4, fn := 1, order := 5, regs := [(1, 2), (3, 0x123), (5, 0x456), (7, 0x103), (8, 6), (9, 2), (11, 2), (14, 9)], steps := 1, budget := 256, reads := [⟨.entry 0x2006, 0, { ctxv := true }, {}⟩] }, { event := 0x2001, entryPc := 4, fn := 1, order := 5, regs := [(1, 2), (3, 0x123), (5, 0x456), (7, 0x103), (8, 6), (9, 2), (11, 2), (14, 9)], steps := 1, budget := 256, reads := [⟨.entry 0x2006, 0, { ctxv := true }, {}⟩, ⟨.ctx 0, 0, {}, {}⟩] }, ⟨false, false, 0, 0, 0, 4, 0⟩, 0x2006, ⟨.entry 0x2006, 0, { ctxv := true }, {}⟩, ⟨.ctx 0, 0, {}, {}⟩, onEntry_of (by decide +kernel), by decide +kernel, reads_of (by decide +kernel), by decide +kernel⟩⟩

/-- States and operands that meet the hypotheses of LequinLedgerEffects, clause by clause. -/
theorem test_meets_LequinLedgerEffects :
    (∃ (s : State) (t : State) (r : RunRef) (x : Run) (y : Run) (f : LqFields) (c : Nat) (it : ReadItem), s.OnCtx r x 41 LqFields.okStx f c y t it ∧
        it.ctx.state ∈ [CtxState.opened, CtxState.lapsed]) ∧
    (∃ (s : State) (t : State) (r : RunRef) (x : Run) (y : Run) (f : LqFields) (c : Nat) (it : ReadItem), s.OnCtx r x 41 LqFields.okStx f c y t it ∧
        it.ctx.state ∈ [CtxState.free, CtxState.faulted]) ∧
    (∃ (s : State) (t : State) (r : RunRef) (x : Run) (y : Run) (f : LqFields) (c : Nat) (it : ReadItem), s.OnCtx r x 42 LqFields.okA f c y t it ∧
        it.ctx.folv = false ∧
        it.ctx.count ≠ 0 ∧
        it.ctx.state ∈ [CtxState.opened, CtxState.lapsed]) ∧
    (∃ (s : State) (t : State) (r : RunRef) (x : Run) (y : Run) (f : LqFields) (c : Nat) (it : ReadItem), s.OnCtx r x 42 LqFields.okA f c y t it ∧
        it.ctx.folv = false ∧
        (it.ctx.count = 0 ∨ it.ctx.state ∈ [CtxState.free, CtxState.faulted])) ∧
    (∃ (s : State) (t : State) (r : RunRef) (x : Run) (y : Run) (f : LqFields) (c : Nat) (it : ReadItem), s.OnCtx r x 43 LqFields.okJadd f c y t it ∧
        f.x = false ∧
        (if f.i = true then f.k else x.w f.b.toNat) ≠ 0 ∧
        (it.ctx.state = CtxState.free ∨ it.ctx.state = CtxState.opened ∧ it.ctx.count.toNat + BitVec.toNat (if f.i = true then f.k else x.w f.b.toNat) ≤ 4095)) ∧
    (∃ (s : State) (t : State) (r : RunRef) (x : Run) (y : Run) (f : LqFields) (c : Nat) (it : ReadItem), s.OnCtx r x 43 LqFields.okJadd f c y t it ∧
        f.x = false ∧
        ((if f.i = true then f.k else x.w f.b.toNat) = 0 ∨ it.ctx.state ∈ [CtxState.lapsed, CtxState.faulted] ∨ it.ctx.state = CtxState.opened ∧ 4095 < it.ctx.count.toNat + BitVec.toNat (if f.i = true then f.k else x.w f.b.toNat))) ∧
    (∃ (s : State) (t : State) (r : RunRef) (x : Run) (y : Run) (f : LqFields) (c : Nat) (it : ReadItem), s.OnCtx r x 44 LqFields.okDlset f c y t it ∧
        it.ctx.state = CtxState.opened ∧
        (∀ (i : Nat), i < 8 → (t.curve (BitVec.extractLsb' 0 4 f.k).toNat i).valid = true → (t.curve (BitVec.extractLsb' 0 4 f.k).toNat i).floor.toNat ≤ (t.priCeil it.ctx.owner.toNat).toNat)) ∧
    (∃ (s : State) (t : State) (r : RunRef) (x : Run) (y : Run) (f : LqFields) (c : Nat) (it : ReadItem), s.OnCtx r x 44 LqFields.okDlset f c y t it ∧
        it.ctx.state ≠ CtxState.opened) ∧
    (∃ (s : State) (t : State) (r : RunRef) (x : Run) (y : Run) (f : LqFields) (c : Nat) (it : ReadItem), s.OnCtx r x 45 LqFields.okA f c y t it ∧
        it.ctx.folv = false ∧
        it.ctx.state = CtxState.opened) ∧
    (∃ (s : State) (t : State) (r : RunRef) (x : Run) (y : Run) (f : LqFields) (c : Nat) (it : ReadItem), s.OnCtx r x 45 LqFields.okA f c y t it ∧
        it.ctx.folv = false ∧
        it.ctx.state ≠ CtxState.opened) ∧
    (∃ (s : State) (t : State) (r : RunRef) (x : Run) (y : Run) (f : LqFields) (c : Nat) (it : ReadItem), s.OnCtx r x 46 LqFields.okKeyarm f c y t it ∧
        f.x = false ∧
        it.ctx.state = CtxState.opened ∧
        it.ctx.folv = true ∧
        it.ctx.armed = false) ∧
    (∃ (s : State) (t : State) (r : RunRef) (x : Run) (y : Run) (f : LqFields) (c : Nat) (it : ReadItem), s.OnCtx r x 46 LqFields.okKeyarm f c y t it ∧
        f.x = false ∧
        (it.ctx.state ≠ CtxState.opened ∨ it.ctx.folv = false ∨ it.ctx.armed = true)) :=
  ⟨⟨w61, w61, ⟨2, 1, 1⟩, { event := 0x2001, entryPc := 4, fn := 1, order := 5, regs := [(1, 2), (3, 0x123), (4, 2), (6, 0x789), (9, 2), (11, 2), (14, 9)], budget := 256 }, { event := 0x2001, entryPc := 4, fn := 1, order := 5, regs := [(1, 2), (3, 0x123), (4, 2), (6, 0x789), (9, 2), (11, 2), (14, 9)], steps := 1, budget := 256, reads := [⟨.ctx 2, 0, {}, { state := .lapsed }⟩] }, ⟨false, false, 0, 0, 0, 4, 0⟩, 2, ⟨.ctx 2, 0, {}, { state := .lapsed }⟩, onCtx_of (by decide +kernel), by decide +kernel⟩,
    ⟨w62, w62, ⟨2, 1, 1⟩, { event := 0x2001, entryPc := 4, fn := 1, order := 5, budget := 256 }, { event := 0x2001, entryPc := 4, fn := 1, order := 5, steps := 1, budget := 256, reads := [⟨.ctx 0, 0, {}, {}⟩] }, ⟨false, false, 0, 0, 0, 8, 0⟩, 0, ⟨.ctx 0, 0, {}, {}⟩, onCtx_of (by decide +kernel), by decide +kernel⟩,
    ⟨w63, w63, ⟨2, 1, 1⟩, { event := 0x2001, entryPc := 4, fn := 1, order := 5, regs := [(1, 2), (3, 0x123), (4, 2), (6, 0x789), (9, 2), (11, 2), (14, 9)], budget := 256 }, { event := 0x2001, entryPc := 4, fn := 1, order := 5, regs := [(1, 2), (3, 0x123), (4, 2), (6, 0x789), (9, 2), (11, 2), (14, 9)], steps := 1, budget := 256, reads := [⟨.ctx 2, 0, {}, { state := .lapsed, count := 5 }⟩] }, ⟨false, false, 0, 0, 0, 4, 0⟩, 2, ⟨.ctx 2, 0, {}, { state := .lapsed, count := 5 }⟩, onCtx_of (by decide +kernel), by decide +kernel⟩,
    ⟨w64, w64, ⟨2, 1, 1⟩, { event := 0x2001, entryPc := 4, fn := 1, order := 5, budget := 256 }, { event := 0x2001, entryPc := 4, fn := 1, order := 5, steps := 1, budget := 256, reads := [⟨.ctx 0, 0, {}, {}⟩] }, ⟨false, false, 0, 0, 0, 8, 0⟩, 0, ⟨.ctx 0, 0, {}, {}⟩, onCtx_of (by decide +kernel), by decide +kernel⟩,
    ⟨w65, w65, ⟨2, 1, 1⟩, { event := 0x2001, entryPc := 4, fn := 1, order := 5, regs := [(0, 1), (2, 3), (4, 2), (6, 0x789), (9, 2), (11, 2), (14, 9)], budget := 256 }, { event := 0x2001, entryPc := 4, fn := 1, order := 5, regs := [(0, 1), (2, 3), (4, 2), (6, 0x789), (9, 2), (11, 2), (14, 9)], steps := 1, budget := 256, reads := [⟨.ctx 0, 0, {}, {}⟩] }, ⟨false, false, 0, 0, 0, 8, 0⟩, 0, ⟨.ctx 0, 0, {}, {}⟩, onCtx_of (by decide +kernel), by decide +kernel⟩,
    ⟨w66, w66, ⟨2, 1, 1⟩, { event := 0x2001, entryPc := 4, fn := 1, order := 5, budget := 256 }, { event := 0x2001, entryPc := 4, fn := 1, order := 5, steps := 1, budget := 256, reads := [⟨.ctx 0, 0, {}, {}⟩] }, ⟨false, false, 0, 0, 0, 4, 0⟩, 0, ⟨.ctx 0, 0, {}, {}⟩, onCtx_of (by decide +kernel), by decide +kernel⟩,
    ⟨w67, w67, ⟨2, 1, 1⟩, { event := 0x2001, entryPc := 4, fn := 1, order := 5, regs := [(1, 2), (3, 0x123), (5, 0x456), (7, 0x103), (8, 1), (10, 3), (12, 0x44), (15, 8)], budget := 256 }, { event := 0x2001, entryPc := 4, fn := 1, order := 5, regs := [(1, 2), (3, 0x123), (5, 0x456), (7, 0x103), (8, 1), (10, 3), (12, 0x44), (15, 8)], steps := 1, budget := 256, reads := [⟨.ctx 1, 0, {}, { state := .opened }⟩] }, ⟨false, false, 0, 0, 0, 8, 0⟩, 1, ⟨.ctx 1, 0, {}, { state := .opened }⟩, onCtx_of (by decide +kernel), by decide +kernel⟩,
    ⟨w68, w68, ⟨2, 1, 1⟩, { event := 0x2001, entryPc := 4, fn := 1, order := 5, budget := 256 }, { event := 0x2001, entryPc := 4, fn := 1, order := 5, steps := 1, budget := 256, reads := [⟨.ctx 0, 0, {}, {}⟩] }, ⟨false, false, 0, 0, 0, 4, 0⟩, 0, ⟨.ctx 0, 0, {}, {}⟩, onCtx_of (by decide +kernel), by decide +kernel⟩,
    ⟨w69, w69, ⟨2, 1, 1⟩, { event := 0x2001, entryPc := 4, fn := 1, order := 5, regs := [(1, 2), (3, 0x123), (5, 0x456), (7, 0x103), (8, 1), (10, 3), (12, 0x44), (15, 8)], budget := 256 }, { event := 0x2001, entryPc := 4, fn := 1, order := 5, regs := [(1, 2), (3, 0x123), (5, 0x456), (7, 0x103), (8, 1), (10, 3), (12, 0x44), (15, 8)], steps := 1, budget := 256, reads := [⟨.ctx 1, 0, {}, { state := .opened }⟩] }, ⟨false, false, 0, 0, 0, 8, 0⟩, 1, ⟨.ctx 1, 0, {}, { state := .opened }⟩, onCtx_of (by decide +kernel), by decide +kernel⟩,
    ⟨w70, w70, ⟨2, 1, 1⟩, { event := 0x2001, entryPc := 4, fn := 1, order := 5, budget := 256 }, { event := 0x2001, entryPc := 4, fn := 1, order := 5, steps := 1, budget := 256, reads := [⟨.ctx 0, 0, {}, {}⟩] }, ⟨false, false, 0, 0, 0, 4, 0⟩, 0, ⟨.ctx 0, 0, {}, {}⟩, onCtx_of (by decide +kernel), by decide +kernel⟩,
    ⟨w71, w71, ⟨2, 1, 1⟩, { event := 0x2001, entryPc := 4, fn := 1, order := 5, regs := [(1, 2), (3, 0x123), (5, 0x456), (7, 0x103), (8, 5), (10, 3), (12, 0x44), (15, 8)], budget := 256 }, { event := 0x2001, entryPc := 4, fn := 1, order := 5, regs := [(1, 2), (3, 0x123), (5, 0x456), (7, 0x103), (8, 5), (10, 3), (12, 0x44), (15, 8)], steps := 1, budget := 256, reads := [⟨.ctx 5, 0, {}, { state := .opened, folv := true }⟩] }, ⟨false, false, 0, 0, 0, 8, 0⟩, 5, ⟨.ctx 5, 0, {}, { state := .opened, folv := true }⟩, onCtx_of (by decide +kernel), by decide +kernel⟩,
    ⟨w72, w72, ⟨2, 1, 1⟩, { event := 0x2001, entryPc := 4, fn := 1, order := 5, budget := 256 }, { event := 0x2001, entryPc := 4, fn := 1, order := 5, steps := 1, budget := 256, reads := [⟨.ctx 0, 0, {}, {}⟩] }, ⟨false, false, 0, 0, 0, 4, 0⟩, 0, ⟨.ctx 0, 0, {}, {}⟩, onCtx_of (by decide +kernel), by decide +kernel⟩⟩

/-- States and operands that meet the hypotheses of LequinFollowOns, clause by clause. -/
theorem test_meets_LequinFollowOns :
    (∃ (s : State) (t : State) (t' : State) (r : RunRef) (x : Run) (y : Run) (y' : Run) (f : LqFields) (c : Nat) (it : ReadItem) (fo : ReadItem), s.OnCtx r x 43 LqFields.okJadd f c y t it ∧
        f.x = true ∧
        (x.dn f.c.toNat).toNat < nEntries ∧
        t.Reads r y (Item.entry (x.dn f.c.toNat).toNat) y' t' fo ∧
        y'.effects.length < 16 ∧
        it.ctx.state = CtxState.free ∧
        fo.entry.state = EvState.idle ∧
        (if f.i = true then f.k else x.w f.b.toNat) ≠ 0) ∧
    (∃ (s : State) (t : State) (t' : State) (r : RunRef) (x : Run) (y : Run) (y' : Run) (f : LqFields) (c : Nat) (it : ReadItem) (fo : ReadItem), s.OnCtx r x 46 LqFields.okKeyarm f c y t it ∧
        f.x = true ∧
        (x.dn f.c.toNat).toNat < nEntries ∧
        t.Reads r y (Item.entry (x.dn f.c.toNat).toNat) y' t' fo ∧
        y'.effects.length < 16 ∧
        it.ctx.state = CtxState.free ∧
        fo.entry.state = EvState.idle) ∧
    (∃ (s : State) (t : State) (r : RunRef) (x : Run) (y : Run) (f : LqFields) (it : ReadItem), s.Fetches r x 47 f ∧
        LqFields.okKeychk f = true ∧
        x.pc ≠ 4095 ∧
        s.Reads r x.counted (Item.ctx (x.w f.a.toNat).toNat) y t it) :=
  ⟨⟨w73, w73, w73, ⟨2, 1, 1⟩, { event := 0x2001, entryPc := 4, fn := 1, order := 5, regs := [(0, 0xFFF), (3, 5), (5, 0xFFF), (7, 0x7FF), (9, 0xABC), (11, 0xD), (13, 0x19), (15, 0x801)], budget := 256 }, { event := 0x2001, entryPc := 4, fn := 1, order := 5, regs := [(0, 0xFFF), (3, 5), (5, 0xFFF), (7, 0x7FF), (9, 0xABC), (11, 0xD), (13, 0x19), (15, 0x801)], steps := 1, budget := 256, reads := [⟨.ctx 0xFFF, 0, {}, {}⟩] }, { event := 0x2001, entryPc := 4, fn := 1, order := 5, regs := [(0, 0xFFF), (3, 5), (5, 0xFFF), (7, 0x7FF), (9, 0xABC), (11, 0xD), (13, 0x19), (15, 0x801)], steps := 1, budget := 256, reads := [⟨.ctx 0xFFF, 0, {}, {}⟩, ⟨.entry 0xFFF, 0, {}, {}⟩] }, ⟨false, true, 0, 0, 0, 0, 0⟩, 0xFFF, ⟨.ctx 0xFFF, 0, {}, {}⟩, ⟨.entry 0xFFF, 0, {}, {}⟩, onCtx_of (by decide +kernel), by decide +kernel, by decide +kernel, reads_of (by decide +kernel), by decide +kernel⟩,
    ⟨w74, w74, w74, ⟨2, 1, 1⟩, { event := 0x2001, entryPc := 4, fn := 1, order := 5, budget := 256 }, { event := 0x2001, entryPc := 4, fn := 1, order := 5, steps := 1, budget := 256, reads := [⟨.ctx 0, 0, {}, {}⟩] }, { event := 0x2001, entryPc := 4, fn := 1, order := 5, steps := 1, budget := 256, reads := [⟨.ctx 0, 0, {}, {}⟩, ⟨.entry 0, 0, {}, {}⟩] }, ⟨false, true, 0, 0, 0, 0, 0⟩, 0, ⟨.ctx 0, 0, {}, {}⟩, ⟨.entry 0, 0, {}, {}⟩, onCtx_of (by decide +kernel), by decide +kernel, by decide +kernel, reads_of (by decide +kernel), by decide +kernel⟩,
    ⟨w75, w75, ⟨2, 1, 1⟩, { event := 0x2001, entryPc := 4, fn := 1, order := 5, budget := 256 }, { event := 0x2001, entryPc := 4, fn := 1, order := 5, steps := 1, budget := 256, reads := [⟨.ctx 0, 0, {}, {}⟩] }, ⟨false, false, 0, 0, 0, 0, 0⟩, ⟨.ctx 0, 0, {}, {}⟩, fetches_of (by decide +kernel), by decide +kernel, by decide +kernel, reads_of (by decide +kernel)⟩⟩

/-- States and operands that meet the hypotheses of LequinDeliveryEffects, clause by clause. -/
theorem test_meets_LequinDeliveryEffects :
    (∃ (s : State) (t : State) (r : RunRef) (x : Run) (y : Run) (f : LqFields) (e : Nat) (it : ReadItem), s.OnEntry r x 48 LqFields.okOffer f e y t it ∧
        f.x = false ∧
        (e ≠ x.event ∨ x.ownEffect = none) ∧
        it.entry.state ∈ [EvState.idle, EvState.posted, EvState.parked, EvState.offered, EvState.claimed, EvState.claimedRepost] ∧
        y.staleReoffer e it.entry.state = false ∧
        t.setupFault (it.entry.withOffer (x.w f.b.toNat) (BitVec.extractLsb' 0 10 (x.w f.c.toNat)) (BitVec.extractLsb' 0 2 f.k) none y.ownPay (decide (it.entry.state ≠ EvState.idle) || y.stlPay.contains e)) = none ∧
        (x.w f.b.toNat).toNat ≤ (t.priCeil it.entry.function.toNat).toNat) ∧
    (∃ (s : State) (t : State) (r : RunRef) (x : Run) (y : Run) (f : LqFields) (e : Nat) (it : ReadItem), s.OnEntry r x 48 LqFields.okOffer f e y t it ∧
        f.x = false ∧
        (e ≠ x.event ∨ x.ownEffect = none) ∧
        (it.entry.state ∈ [EvState.queued, EvState.heldJoin, EvState.heldTwokey, EvState.heldCurfew, EvState.faulted] ∨ (t.priCeil it.entry.function.toNat).toNat < (x.w f.b.toNat).toNat)) ∧
    (∃ (s : State) (t : State) (r : RunRef) (x : Run) (y : Run) (f : LqFields) (e : Nat) (rm : Nat) (it : ReadItem), s.OnEntry r x 53 LqFields.okFwd f e y t it ∧
        (e ≠ x.event ∨ x.ownEffect = none) ∧
        it.entry.state ∈ [EvState.idle, EvState.posted, EvState.parked] ∧
        t.setupFault { state := it.entry.state, mask := it.entry.mask, level := it.entry.level, sensitive := it.entry.sensitive, direct := it.entry.direct, coalesce := it.entry.coalesce, activeLow := it.entry.activeLow, ctxv := it.entry.ctxv, run := it.entry.run, priority := it.entry.priority, target := BitVec.extractLsb' 0 10 (x.w f.b.toNat), tmode := 3, function := it.entry.function, context := it.entry.context, cls := it.entry.cls, payload := if (decide (it.entry.state ≠ EvState.idle) || y.stlPay.contains e) = true then it.entry.payload else y.ownPay, entryPc := it.entry.entryPc, version := it.entry.version, merges := it.entry.merges } = none ∧
        t.linkUp (BitVec.extractLsb' 8 2 (BitVec.extractLsb' 0 10 (x.w f.b.toNat))).toNat = true ∧
        t.freeRoom (BitVec.extractLsb' 8 2 (BitVec.extractLsb' 0 10 (x.w f.b.toNat))).toNat = some rm) ∧
    (∃ (s : State) (t : State) (r : RunRef) (x : Run) (y : Run) (f : LqFields) (e : Nat) (it : ReadItem), s.OnEntry r x 54 LqFields.okCurf f e y t it ∧
        e ≠ x.event ∧
        it.entry.state ∈ [EvState.idle, EvState.parked] ∧
        t.setupFault { state := it.entry.state, mask := it.entry.mask, level := it.entry.level, sensitive := true, direct := it.entry.direct, coalesce := it.entry.coalesce, activeLow := it.entry.activeLow, ctxv := it.entry.ctxv, run := it.entry.run, priority := it.entry.priority, target := it.entry.target, tmode := it.entry.tmode, function := it.entry.function, context := it.entry.context, cls := BitVec.extractLsb' 0 3 f.k, payload := it.entry.payload, entryPc := it.entry.entryPc, version := it.entry.version, merges := it.entry.merges } = none) ∧
    (∃ (s : State) (t : State) (r : RunRef) (x : Run) (y : Run) (f : LqFields) (e : Nat) (it : ReadItem), s.OnEntry r x 54 LqFields.okCurf f e y t it ∧
        (e = x.event ∨ ¬it.entry.state ∈ [EvState.idle, EvState.parked])) ∧
    (∃ (s : State) (r : RunRef) (x : Run) (f : LqFields), s.Fetches r x 51 f ∧
        f.okAorK 2047 = true ∧
        x.pc ≠ 4095 ∧
        x.effects.length < 16 ∧
        BitVec.toNat (if f.i = true then f.k else x.w f.a.toNat) < (s.fn x.fn.toNat).vecCount) ∧
    (∃ (s : State) (r : RunRef) (x : Run) (f : LqFields), s.Fetches r x 51 f ∧
        f.okAorK 2047 = true ∧
        x.pc ≠ 4095 ∧
        x.effects.length < 16 ∧
        (s.fn x.fn.toNat).vecCount ≤ BitVec.toNat (if f.i = true then f.k else x.w f.a.toNat)) ∧
    (∃ (s : State) (r : RunRef) (x : Run) (f : LqFields), s.Fetches r x 52 f ∧
        LqFields.okNqw f = true ∧
        x.pc ≠ 4095 ∧
        x.effects.length < 16 ∧
        x.w f.a.toNat ≠ 4095 ∧
        (x.w f.a.toNat).toNat < (s.fn x.fn.toNat).nqCount ∧
        ((s.fn x.fn.toNat).nq (x.w f.a.toNat).toNat).enable = true ∧
        0 < ((s.fn x.fn.toNat).nq (x.w f.a.toNat).toNat).freeSlots) ∧
    (∃ (s : State) (r : RunRef) (x : Run) (f : LqFields), s.Fetches r x 52 f ∧
        LqFields.okNqw f = true ∧
        x.pc ≠ 4095 ∧
        x.effects.length < 16 ∧
        x.w f.a.toNat ≠ 4095 ∧
        ¬((x.w f.a.toNat).toNat < (s.fn x.fn.toNat).nqCount ∧ ((s.fn x.fn.toNat).nq (x.w f.a.toNat).toNat).enable = true ∧ 0 < ((s.fn x.fn.toNat).nq (x.w f.a.toNat).toNat).freeSlots)) :=
  ⟨⟨w76, w76, ⟨2, 1, 1⟩, { event := 0x2001, entryPc := 4, fn := 1, order := 5, budget := 256 }, { event := 0x2001, entryPc := 4, fn := 1, order := 5, steps := 1, budget := 256, reads := [⟨.entry 0, 0, {}, {}⟩] }, ⟨false, false, 0, 0, 0, 0, 0⟩, 0, ⟨.entry 0, 0, {}, {}⟩, onEntry_of (by decide +kernel), by decide +kernel⟩,
    ⟨w77, w77, ⟨2, 1, 1⟩, { event := 0x2001, entryPc := 4, fn := 1, order := 5, regs := [(0, 1), (1, 2), (3, 0x123), (5, 0x456), (7, 0x103), (10, 3), (12, 0x44), (15, 8)], budget := 256 }, { event := 0x2001, entryPc := 4, fn := 1, order := 5, regs := [(0, 1), (1, 2), (3, 0x123), (5, 0x456), (7, 0x103), (10, 3), (12, 0x44), (15, 8)], steps := 1, budget := 256, reads := [⟨.entry 0x2001, 0, { function := 1 }, {}⟩] }, ⟨false, false, 0, 0, 5, 0, 0⟩, 0x2001, ⟨.entry 0x2001, 0, { function := 1 }, {}⟩, onEntry_of (by decide +kernel), by decide +kernel⟩,
    ⟨w78, w78, ⟨2, 1, 1⟩, { event := 0x2001, entryPc := 4, fn := 1, order := 5, regs := [(0, 0x100), (4, 2), (6, 0x789), (9, 2)], budget := 256 }, { event := 0x2001, entryPc := 4, fn := 1, order := 5, regs := [(0, 0x100), (4, 2), (6, 0x789), (9, 2)], steps := 1, budget := 256, reads := [⟨.entry 256, 0, {}, {}⟩] }, ⟨false, false, 0, 0, 0, 0, 0⟩, 256, 0, ⟨.entry 256, 0, {}, {}⟩, onEntry_of (by decide +kernel), by decide +kernel⟩,
    ⟨w79, w79, ⟨2, 1, 1⟩, { event := 0x2001, entryPc := 4, fn := 1, order := 5, budget := 256 }, { event := 0x2001, entryPc := 4, fn := 1, order := 5, steps := 1, budget := 256, reads := [⟨.entry 0, 0, {}, {}⟩] }, ⟨false, false, 0, 0, 0, 0, 0⟩, 0, ⟨.entry 0, 0, {}, {}⟩, onEntry_of (by decide +kernel), by decide +kernel⟩,
    ⟨w80, w80, ⟨2, 1, 1⟩, { event := 0x2001, entryPc := 4, fn := 1, order := 5, regs := [(1, 2), (3, 0x123), (5, 0x456), (7, 0x103), (8, 1), (9, 2), (11, 2), (14, 9)], budget := 256 }, { event := 0x2001, entryPc := 4, fn := 1, order := 5, regs := [(1, 2), (3, 0x123), (5, 0x456), (7, 0x103), (8, 1), (9, 2), (11, 2), (14, 9)], steps := 1, budget := 256, reads := [⟨.entry 0x2001, 0, {}, {}⟩] }, ⟨false, false, 0, 0, 0, 4, 0⟩, 0x2001, ⟨.entry 0x2001, 0, {}, {}⟩, onEntry_of (by decide +kernel), by decide +kernel⟩,
    ⟨w81, ⟨2, 1, 1⟩, { event := 0x2001, entryPc := 4, fn := 1, order := 5, budget := 256 }, ⟨false, false, 0, 0, 0, 0, 0⟩, fetches_of (by decide +kernel), by decide +kernel⟩,
    ⟨w82, ⟨2, 1, 1⟩, { event := 0x2001, entryPc := 4, fn := 1, order := 5, regs := [(0, 0x100), (4, 2), (6, 0x789), (9, 2)], budget := 256 }, ⟨false, false, 0, 0, 0, 0, 0⟩, fetches_of (by decide +kernel), by decide +kernel⟩,
    ⟨w83, ⟨2, 1, 1⟩, { event := 0x2001, entryPc := 4, fn := 1, order := 5, regs := [(1, 2), (3, 0x123), (5, 0x456), (7, 0x103), (8, 3), (10, 3), (12, 0x44), (15, 8)], budget := 256 }, ⟨false, false, 0, 0, 0, 8, 0⟩, fetches_of (by decide +kernel), by decide +kernel⟩,
    ⟨w84, ⟨2, 1, 1⟩, { event := 0x2001, entryPc := 4, fn := 1, order := 5, budget := 256 }, ⟨false, false, 0, 0, 0, 0, 0⟩, fetches_of (by decide +kernel), by decide +kernel⟩⟩

/-- States and operands that meet the hypotheses of LequinHintsAndGenerations, clause by clause. -/
theorem test_meets_LequinHintsAndGenerations :
    (∃ (s : State) (r : RunRef) (x : Run) (f : LqFields), s.Fetches r x 49 f ∧
        f.okAorK 255 = true ∧
        x.pc ≠ 4095) ∧
    (∃ (s : State) (r : RunRef) (x : Run) (f : LqFields), s.Fetches r x 50 f ∧
        f.okFN = true ∧
        x.pc ≠ 4095) ∧
    (∃ (s : State) (r : RunRef) (x : Run) (f : LqFields), s.Fetches r x 59 f ∧
        f.okPairA = true ∧
        x.pc ≠ 4095) ∧
    (∃ (s : State) (r : RunRef) (x : Run) (f : LqFields), s.Fetches r x 61 f ∧
        f.okFN = true ∧
        x.pc ≠ 4095 ∧
        (s.fn x.fn.toNat).state = FnState.inService) ∧
    (∃ (s : State) (r : RunRef) (x : Run) (f : LqFields), s.Fetches r x 62 f ∧
        f.okFN = true ∧
        x.pc ≠ 4095) :=
  ⟨⟨w85, ⟨2, 1, 1⟩, { event := 0x2001, entryPc := 4, fn := 1, order := 5, budget := 256 }, ⟨false, false, 0, 0, 0, 4, 0⟩, fetches_of (by decide +kernel), by decide +kernel⟩,
    ⟨w86, ⟨2, 1, 1⟩, { event := 0x2001, entryPc := 4, fn := 1, order := 5, budget := 256 }, ⟨false, false, 0, 0, 0, 0, 0⟩, fetches_of (by decide +kernel), by decide +kernel⟩,
    ⟨w87, ⟨2, 1, 1⟩, { event := 0x2001, entryPc := 4, fn := 1, order := 5, budget := 256 }, ⟨false, false, 0, 0, 0, 4, 0⟩, fetches_of (by decide +kernel), by decide +kernel⟩,
    ⟨w88, ⟨2, 1, 1⟩, { event := 0x2001, entryPc := 4, fn := 1, order := 5, budget := 256 }, ⟨false, false, 0, 0, 0, 0, 0⟩, fetches_of (by decide +kernel), by decide +kernel⟩,
    ⟨w89, ⟨2, 1, 1⟩, { event := 0x2001, entryPc := 4, fn := 1, order := 5, budget := 256 }, ⟨false, false, 0, 0, 0, 0, 0⟩, fetches_of (by decide +kernel), by decide +kernel⟩⟩

/-- States and operands that meet the hypotheses of LequinLogRandAndWaits, clause by clause. -/
theorem test_meets_LequinLogRandAndWaits :
    (∃ (s : State) (r : RunRef) (x : Run) (f : LqFields), s.Fetches r x 55 f ∧
        LqFields.okLog f = true ∧
        x.pc ≠ 4095 ∧
        s.gb.logEn = false) ∧
    (∃ (s : State) (r : RunRef) (x : Run) (f : LqFields), s.Fetches r x 55 f ∧
        LqFields.okLog f = true ∧
        x.pc ≠ 4095 ∧
        s.gb.logEn = true ∧
        s.gb.enable = true ∧
        s.gbSuspended = false ∧
        s.gbUnread < 16384 ∧
        s.gb.pending = 0 ∧
        s.gb.gapDue = none ∧
        s.gb.lastTime = some (BitVec.extractLsb' 32 16 s.gl.time)) ∧
    (∃ (s : State) (r : RunRef) (x : Run) (f : LqFields), s.Fetches r x 58 f ∧
        f.only { d := true } = true ∧
        x.pc ≠ 4095 ∧
        s.fallback = true) ∧
    (∃ (s : State) (r : RunRef) (x : Run) (f : LqFields), s.Fetches r x 58 f ∧
        f.only { d := true } = true ∧
        x.pc ≠ 4095 ∧
        s.fallback = false ∧
        12 ≤ s.poolBits) ∧
    (∃ (s : State) (r : RunRef) (x : Run) (f : LqFields), s.Fetches r x 57 f ∧
        f.okA = true ∧
        x.pc ≠ 4095 ∧
        (x.w f.a.toNat).toNat < 1024 ∧
        (∀ (q : RunRef × Run), q ∈ s.allRuns → q.snd.fn = BitVec.extractLsb' 0 10 (x.w f.a.toNat) → x.order ≤ q.snd.order)) ∧
    (∃ (s : State) (r : RunRef) (x : Run) (g : BitVec 10), s.Calm ∧
        s.live = true ∧
        r.wf = true ∧
        s.run r = some x ∧
        x.phase = RunPhase.fwait g ∧
        x.serial = false ∧
        (s.runPorter r).exec = r.ctx ∧
        (∀ (q : RunRef × Run), q ∈ s.allRuns → q.snd.fn = g → x.order ≤ q.snd.order)) :=
  ⟨⟨w90, ⟨2, 1, 1⟩, { event := 0x2001, entryPc := 4, fn := 1, order := 5, budget := 256 }, ⟨false, false, 0, 0, 0, 0, 0⟩, fetches_of (by decide +kernel), by decide +kernel⟩,
    ⟨w91, ⟨2, 1, 1⟩, { event := 0x2001, entryPc := 4, fn := 1, order := 5, budget := 256 }, ⟨false, false, 0, 0, 0, 4, 0⟩, fetches_of (by decide +kernel), by decide +kernel⟩,
    ⟨w92, ⟨2, 1, 1⟩, { event := 0x2001, entryPc := 4, fn := 1, order := 5, budget := 256 }, ⟨false, false, 0, 0, 0, 0, 0⟩, fetches_of (by decide +kernel), by decide +kernel⟩,
    ⟨w93, ⟨2, 1, 1⟩, { event := 0x2001, entryPc := 4, fn := 1, order := 5, budget := 256 }, ⟨false, false, 0, 0, 0, 0, 0⟩, fetches_of (by decide +kernel), by decide +kernel⟩,
    ⟨w94, ⟨2, 1, 1⟩, { event := 0x2001, entryPc := 4, fn := 1, order := 5, budget := 256 }, ⟨false, false, 0, 0, 0, 0, 0⟩, fetches_of (by decide +kernel), by decide +kernel⟩,
    ⟨w95, ⟨2, 1, 0⟩, { event := 0x2001, entryPc := 4, fn := 1, order := 5, phase := .fwait 1, pc := 5, regs := [(0, 3), (1, 4), (2, 5)], budget := 256, ownPay := 0x55AA55AA5 }, 1, calm_of (by decide +kernel), by decide +kernel⟩⟩

/-- States and operands that meet the hypotheses of LequinCommitsLockTheReadSet, clause by clause. -/
theorem test_meets_LequinCommitsLockTheReadSet :
    (∃ (s : State) (r : RunRef) (x : Run) (f : LqFields), s.Canonical ∧
        s.mirrorOn = false ∧
        s.NoneWaits ∧
        (∀ (it : ReadItem), it ∈ x.reads → s.itemWaits it.item = false ∧ s.itemChanged r it = false) ∧
        f.okFN = true ∧
        s.Fetches r x 30 f) ∧
    (∃ (s : State) (r : RunRef) (x : Run) (f : LqFields), s.Canonical ∧
        s.mirrorOn = false ∧
        s.NoneWaits ∧
        (∀ (it : ReadItem), it ∈ x.reads → s.itemWaits it.item = false ∧ s.itemChanged r it = false) ∧
        f.okFN = true ∧
        s.Fetches r x 56 f) :=
  ⟨⟨w96, ⟨2, 1, 1⟩, { event := 0x2001, entryPc := 4, fn := 1, order := 5, budget := 256 }, ⟨false, false, 0, 0, 0, 0, 0⟩, canonical_of (by decide +kernel), by decide +kernel, noneWaits_of (by decide +kernel), by decide +kernel, by decide +kernel, fetches_of (by decide +kernel)⟩,
    ⟨w97, ⟨2, 1, 1⟩, { event := 0x2001, entryPc := 4, fn := 1, order := 5, budget := 256 }, ⟨false, false, 0, 0, 0, 0, 0⟩, canonical_of (by decide +kernel), by decide +kernel, noneWaits_of (by decide +kernel), by decide +kernel, by decide +kernel, fetches_of (by decide +kernel)⟩⟩

/-- States and operands that meet the hypotheses of CommitsEndAndSerialise, clause by clause. -/
theorem test_meets_CommitsEndAndSerialise :
    (∃ (s : State) (r : RunRef) (x : Run), s.Canonical ∧
        s.Calm ∧
        s.gb.enable = false ∧
        s.live = true ∧
        r.wf = true ∧
        s.run r = some x ∧
        x.phase = RunPhase.commitDone ∧
        x.effects = [] ∧
        x.latched = [] ∧
        (∀ (it : ReadItem), it ∈ x.reads → s.itemWaits it.item = false) ∧
        s.waitsGrant r = false ∧
        s.ep.spill = [] ∧
        (s.entry x.event).state = EvState.posted ∧
        (s.side x.event).placed = none ∧
        (s.side x.event).holder = none ∧
        (s.side x.event).room = none ∧
        (s.wf.enabled = false ∨ isWired x.event = false ∧ ∀ (it : ReadItem), it ∈ x.reads → ∀ (e : Nat), it.item = Item.entry e → isWired e = false)) ∧
    (∃ (s : State) (r : RunRef) (x : Run), s.Canonical ∧
        s.Calm ∧
        s.live = true ∧
        r.wf = true ∧
        s.run r = some x ∧
        x.phase = RunPhase.commitFence ∧
        x.effects = [] ∧
        x.latched = [] ∧
        (∀ (it : ReadItem), it ∈ x.reads → s.itemWaits it.item = false) ∧
        s.waitsGrant r = false ∧
        (s.wf.enabled = false ∨ ∀ (it : ReadItem), it ∈ x.reads → ∀ (e : Nat), it.item = Item.entry e → isWired e = false) ∧
        s.ep.spill = [] ∧
        x.pc ≠ 4095 ∧
        (s.runPorter r).state = PorterState.active) ∧
    (∃ (s : State) (r : RunRef) (l : List RunRef) (x : Run), s.Canonical ∧
        s.Calm ∧
        s.live = true ∧
        s.pa.serialHeld = none ∧
        s.pa.serialQ = r :: l ∧
        s.run r = some x ∧
        s.busy x.event = false ∧
        s.ownGood x = true ∧
        (x.check.atStart = true → s.badEntry r { event := x.event, entryPc := x.entryPc, fn := x.fn, order := x.order, phase := x.phase, pc := (s.entry x.event).entryPc, regs := x.regs, z := x.z, c := x.c, n := x.n, f := x.f, rndv := x.rndv, stack := x.stack, steps := x.steps, budget := x.budget, reads := x.reads, effects := x.effects, ownPay := x.ownPay, stlPay := x.stlPay, conflicts := x.conflicts, serial := x.serial, rerun := x.rerun, latched := x.latched, cache := x.cache, cacheGen := x.cacheGen, steal := x.steal, fwaited := x.fwaited, check := x.check } = false)) :=
  ⟨⟨w98, ⟨2, 1, 0⟩, { event := 0x2001, entryPc := 4, fn := 1, order := 5, phase := .commitDone, pc := 5, regs := [(0, 3), (1, 4), (2, 5)], budget := 256, ownPay := 0x55AA55AA5 }, canonical_of (by decide +kernel), calm_of (by decide +kernel), by decide +kernel, by decide +kernel, by decide +kernel, by decide +kernel, by decide +kernel, by decide +kernel, by decide +kernel, by decide +kernel, by decide +kernel, by decide +kernel, by decide +kernel, by decide +kernel, by decide +kernel, by decide +kernel, .inr ⟨by decide +kernel, fun _ h => absurd h List.not_mem_nil⟩⟩,
    ⟨w99, ⟨2, 1, 0⟩, { event := 0x2001, entryPc := 4, fn := 1, order := 5, phase := .commitFence, pc := 5, regs := [(0, 3), (1, 4), (2, 5)], budget := 256, ownPay := 0x55AA55AA5 }, canonical_of (by decide +kernel), calm_of (by decide +kernel), by decide +kernel, by decide +kernel, by decide +kernel, by decide +kernel, by decide +kernel, by decide +kernel, by decide +kernel, by decide +kernel, .inr (fun _ h => absurd h List.not_mem_nil), by decide +kernel⟩,
    ⟨w100, ⟨2, 1, 0⟩, [], { event := 0x2001, entryPc := 4, fn := 1, order := 5, pc := 5, regs := [(0, 3), (1, 4), (2, 5)], budget := 256, ownPay := 0x55AA55AA5 }, canonical_of (by decide +kernel), calm_of (by decide +kernel), by decide +kernel⟩⟩

/-- States and operands that meet the hypotheses of HostPortRequests, clause by clause. -/
theorem test_meets_HostPortRequests :
    (∃ (s : State) (q : HpReq) (n : Nat) (k : Nat), s.mirrorOn = false ∧
        s.blocked = [] ∧
        s.awake = true ∧
        s.np.zRun = false ∧
        s.np.zHold = false ∧
        q.wf = true ∧
        q.write = false ∧
        q.len = 8 ∧
        n < 5 ∧
        q.addr.toNat = 64 + 8 * n ∧
        s.canTake q = true ∧
        s.hp.untaken = [] ∧
        s.judge q = Judgement.pass ∧
        s.freeSlot q.attr = some k) ∧
    (∃ (s : State) (q : HpReq) (code : BitVec 4), s.Calm ∧
        s.live = true ∧
        q.wf = true ∧
        shapeOk q = true ∧
        s.canTake q = true ∧
        s.hp.untaken = [] ∧
        s.judge q = Judgement.deny code ∧
        s.tg.imprecise = false ∧
        s.tg.log.valid = true) ∧
    (∃ (s : State) (q : HpReq), s.Calm ∧
        s.live = true ∧
        q.wf = true ∧
        shapeOk q = true ∧
        s.canTake q = true ∧
        s.hp.untaken = [] ∧
        s.judge q = Judgement.stall) ∧
    (∃ (s : State) (id : BitVec 6), s.mirrorOn = false ∧
        s.hp.untaken = [] ∧
        s.tg.gate ≠ Gate.closing ∧
        (∃ r, r ∈ s.hp.responses ∧ r.id = id)) :=
  ⟨⟨live, ⟨⟨1, 0, true, true, 0⟩, 0x40, 8, false, [], []⟩, 0, 0, by decide +kernel⟩,
    ⟨w101, ⟨⟨2, 1, false, false, 7⟩, 0x48, 8, false, [], []⟩, 6, calm_of (by decide +kernel), by decide +kernel⟩,
    ⟨w102, ⟨⟨1, 0, true, true, 0⟩, 0x40, 8, false, [], []⟩, calm_of (by decide +kernel), by decide +kernel⟩,
    ⟨w103, 3, by decide +kernel⟩⟩

/-- States and operands that meet the hypotheses of GlobalRegisterWrites, clause by clause. -/
theorem test_meets_GlobalRegisterWrites :
    (∃ (n : Nat) (v : Word) (s : State) (h : HpAttr), n < 5 ∧
        s.Calm ∧
        s.LetIn h ∧
        True) ∧
    (∃ (i : BitVec 2) (s : State) (h : HpAttr), s.Calm ∧
        s.LetIn h ∧
        s.st.sealed = false ∧
        (∀ (n : Nat), n < 4 → (s.port n).state = PortState.off)) ∧
    (∃ (i : BitVec 2) (s : State) (h : HpAttr), s.Calm ∧
        s.LetIn h ∧
        (s.st.sealed = true ∨ ∃ n, n < 4 ∧ (s.port n).state ≠ PortState.off)) :=
  ⟨⟨0, 0, live, ⟨1, 0, true, true, 0⟩, by decide +kernel, calm_of (by decide +kernel), letIn_of (by decide +kernel), trivial⟩,
    ⟨0, w104, ⟨1, 0, true, true, 0⟩, calm_of (by decide +kernel), letIn_of (by decide +kernel), by decide +kernel⟩,
    ⟨0, live, ⟨1, 0, true, true, 0⟩, calm_of (by decide +kernel), letIn_of (by decide +kernel), by decide +kernel⟩⟩

/-- States and operands that meet the hypotheses of Doorbells, clause by clause. -/
theorem test_meets_Doorbells :
    (∃ (s : State) (h : HpAttr) (fn : BitVec 10) (d : Doorbell) (e : Nat), s.Alone e ∧
        s.LetIn h ∧
        s.InService fn ∧
        s.doorbellEntry fn d = some e ∧
        s.lt.scramble ≠ 0 ∧
        (s.entry e).state = EvState.idle ∧
        (s.entry e).direct = false) ∧
    (∃ (s : State) (h : HpAttr) (fn : BitVec 10) (d : Doorbell) (e : Nat), s.Calm ∧
        s.LetIn h ∧
        s.InService fn ∧
        s.doorbellEntry fn d = some e ∧
        s.lt.scramble ≠ 0 ∧
        s.busy e = false ∧
        (s.entry e).state ∈ [EvState.posted, EvState.queued, EvState.offered, EvState.claimedRepost, EvState.heldCurfew] ∧
        ((s.entry e).coalesce = false ∨ d.nomerge = true)) ∧
    (∃ (s : State) (h : HpAttr) (fn : BitVec 10) (d : Doorbell) (e : Nat), s.Calm ∧
        s.LetIn h ∧
        s.InService fn ∧
        s.doorbellEntry fn d = some e ∧
        s.lt.scramble ≠ 0 ∧
        s.busy e = false ∧
        (s.entry e).state ∈ [EvState.heldJoin, EvState.heldTwokey, EvState.faulted]) ∧
    (∃ (s : State) (h : HpAttr) (fn : BitVec 10) (d : Doorbell), s.Calm ∧
        s.LetIn h ∧
        s.InService fn ∧
        (d.rsvLow ≠ 0 ∨ d.rsvHigh ≠ 0 ∨ d.event = 0 ∨ 256 * (s.fn fn.toNat).lodgN.toNat ≤ d.event.toNat)) ∧
    (∃ (s : State) (h : HpAttr) (fn : BitVec 10) (d : Doorbell) (e : Nat), s.Alone e ∧
        s.LetIn h ∧
        s.InService fn ∧
        s.doorbellEntry fn d = some e ∧
        s.lt.scramble ≠ 0 ∧
        (s.entry e).state = EvState.posted ∧
        (s.entry e).direct = false ∧
        (s.entry e).mask = false) ∧
    (∃ (s : State) (h : HpAttr) (fn : BitVec 10) (d : Doorbell) (e : Nat), s.Alone e ∧
        s.LetIn h ∧
        s.InService fn ∧
        s.doorbellEntry fn d = some e ∧
        s.lt.scramble ≠ 0 ∧
        (s.entry e).state = EvState.posted ∧
        (s.entry e).direct = false ∧
        (s.entry e).mask = true) ∧
    (∃ (s : State) (h : HpAttr) (fn : BitVec 10) (d : Doorbell) (e : Nat), s.Calm ∧
        s.LetIn h ∧
        s.InService fn ∧
        s.doorbellEntry fn d = some e ∧
        s.lt.scramble ≠ 0 ∧
        s.busy e = false ∧
        (s.entry e).state ∈ [EvState.idle, EvState.claimed, EvState.heldJoin, EvState.heldTwokey, EvState.faulted]) ∧
    (∃ (s : State) (h : HpAttr) (fn : BitVec 10) (d : Doorbell) (e : Nat), s.Calm ∧
        s.LetIn h ∧
        s.InService fn ∧
        s.doorbellEntry fn d = some e ∧
        s.lt.scramble ≠ 0 ∧
        s.busy e = false ∧
        ((s.entry e).mask = true ∨ (s.entry e).state = EvState.faulted)) ∧
    (∃ (s : State) (h : HpAttr) (fn : BitVec 10) (d : Doorbell) (e : Nat), s.Calm ∧
        s.LetIn h ∧
        s.InService fn ∧
        s.doorbellEntry fn d = some e ∧
        s.lt.scramble ≠ 0 ∧
        s.busy e = false ∧
        ((s.entry e).mask = false ∨ (s.entry e).state = EvState.faulted)) :=
  ⟨⟨live, ⟨1, 0, true, true, 0⟩, 1, ⟨5, 0, false, 0, 0xABC⟩, 0x445, alone_of (by decide +kernel), letIn_of (by decide +kernel), ⟨by decide +kernel, by decide +kernel⟩, by decide +kernel⟩,
    ⟨w105, ⟨1, 0, true, true, 0⟩, 1, ⟨5, 0, false, 0, 0xABC⟩, 0xC45, calm_of (by decide +kernel), letIn_of (by decide +kernel), ⟨by decide +kernel, by decide +kernel⟩, by decide +kernel⟩,
    ⟨w106, ⟨1, 0, true, true, 0⟩, 1, ⟨5, 0, false, 0, 0xABC⟩, 0xC45, calm_of (by decide +kernel), letIn_of (by decide +kernel), ⟨by decide +kernel, by decide +kernel⟩, by decide +kernel⟩,
    ⟨live, ⟨1, 0, true, true, 0⟩, 0, ⟨5, 0, false, 0, 0xABC⟩, calm_of (by decide +kernel), letIn_of (by decide +kernel), ⟨by decide +kernel, by decide +kernel⟩, by decide +kernel⟩,
    ⟨w105, ⟨1, 0, true, true, 0⟩, 1, ⟨5, 0, false, 0, 0xABC⟩, 0xC45, alone_of (by decide +kernel), letIn_of (by decide +kernel), ⟨by decide +kernel, by decide +kernel⟩, by decide +kernel⟩,
    ⟨w107, ⟨1, 0, true, true, 0⟩, 1, ⟨5, 0, false, 0, 0xABC⟩, 0xC45, alone_of (by decide +kernel), letIn_of (by decide +kernel), ⟨by decide +kernel, by decide +kernel⟩, by decide +kernel⟩,
    ⟨live, ⟨1, 0, true, true, 0⟩, 1, ⟨5, 0, false, 0, 0xABC⟩, 0x445, calm_of (by decide +kernel), letIn_of (by decide +kernel), ⟨by decide +kernel, by decide +kernel⟩, by decide +kernel⟩,
    ⟨w108, ⟨1, 0, true, true, 0⟩, 1, ⟨5, 0, false, 0, 0xABC⟩, 0xC45, calm_of (by decide +kernel), letIn_of (by decide +kernel), ⟨by decide +kernel, by decide +kernel⟩, by decide +kernel⟩,
    ⟨live, ⟨1, 0, true, true, 0⟩, 1, ⟨5, 0, false, 0, 0xABC⟩, 0x445, calm_of (by decide +kernel), letIn_of (by decide +kernel), ⟨by decide +kernel, by decide +kernel⟩, by decide +kernel⟩⟩

/-- States and operands that meet the hypotheses of FencesAndKeys, clause by clause. -/
theorem test_meets_FencesAndKeys :
    (∃ (s : State) (h : HpAttr) (fn : BitVec 10) (v : Word) (e : Nat), s.Alone e ∧
        s.LetIn h ∧
        s.InService fn ∧
        BitVec.extractLsb' 12 52 v = 0 ∧
        s.globalEv fn 0 = some e ∧
        s.lt.scramble ≠ 0 ∧
        (∀ (k : HeldFence), k ∈ s.mi.fences → k.fn ≠ fn) ∧
        (s.entry e).state = EvState.idle ∧
        (s.entry e).direct = false ∧
        s.unsettledBefore (Source.function fn) s.nextStamp = true) ∧
    (∃ (s : State) (h : HpAttr) (fn : BitVec 10) (v : Word) (e : Nat), s.Alone e ∧
        s.LetIn h ∧
        s.InService fn ∧
        BitVec.extractLsb' 12 52 v = 0 ∧
        s.globalEv fn 0 = some e ∧
        s.lt.scramble ≠ 0 ∧
        (∀ (k : HeldFence), k ∈ s.mi.fences → k.fn ≠ fn) ∧
        (s.entry e).state = EvState.idle ∧
        (s.entry e).direct = false ∧
        s.unsettledBefore (Source.function fn) s.nextStamp = false) ∧
    (∃ (s : State) (h : HpAttr) (fn : BitVec 10) (v : Word) (e : Nat), s.Calm ∧
        s.LetIn h ∧
        s.InService fn ∧
        BitVec.extractLsb' 12 52 v = 0 ∧
        s.globalEv fn 0 = some e ∧
        s.lt.scramble ≠ 0 ∧
        s.busy e = false ∧
        ((∃ k, k ∈ s.mi.fences ∧ k.fn = fn) ∨ (s.entry e).state ≠ EvState.idle)) ∧
    (∃ (s : State) (fn : BitVec 10) (e : Nat) (k : HeldFence), s.Alone e ∧
        s.live = true ∧
        fn.toNat ≤ 512 ∧
        s.globalEv fn 0 = some e ∧
        List.find? (fun x => decide (x.fn = fn)) s.mi.fences = some k ∧
        s.unsettledBefore (Source.function fn) k.stamp = false ∧
        (s.entry e).state = EvState.idle ∧
        (s.entry e).direct = false) ∧
    (∃ (s : State) (h : HpAttr) (fn : BitVec 10) (v : Word), s.Canonical ∧
        s.Calm ∧
        s.LetIn h ∧
        s.InService fn ∧
        BitVec.extractLsb' 24 40 v = 0 ∧
        (BitVec.extractLsb' 0 12 v).toNat < 16 * (s.fn fn.toNat).ledgN.toNat ∧
        s.lt.scramble ≠ 0 ∧
        s.ctxBusy (16 * (s.fn fn.toNat).ledgBase.toNat + (BitVec.extractLsb' 0 12 v).toNat) = false ∧
        ((s.ctx (16 * (s.fn fn.toNat).ledgBase.toNat + (BitVec.extractLsb' 0 12 v).toNat)).state ≠ CtxState.opened ∨ (s.ctx (16 * (s.fn fn.toNat).ledgBase.toNat + (BitVec.extractLsb' 0 12 v).toNat)).armed = false ∨ (s.ctx (16 * (s.fn fn.toNat).ledgBase.toNat + (BitVec.extractLsb' 0 12 v).toNat)).keysat = true)) ∧
    (∃ (s : State) (h : HpAttr) (fn : BitVec 10) (v : Word), s.Canonical ∧
        s.Calm ∧
        s.LetIn h ∧
        s.InService fn ∧
        BitVec.extractLsb' 24 40 v = 0 ∧
        (BitVec.extractLsb' 0 12 v).toNat < 16 * (s.fn fn.toNat).ledgN.toNat ∧
        s.lt.scramble ≠ 0 ∧
        s.ctxBusy (16 * (s.fn fn.toNat).ledgBase.toNat + (BitVec.extractLsb' 0 12 v).toNat) = false ∧
        (s.ctx (16 * (s.fn fn.toNat).ledgBase.toNat + (BitVec.extractLsb' 0 12 v).toNat)).state = CtxState.opened ∧
        (s.ctx (16 * (s.fn fn.toNat).ledgBase.toNat + (BitVec.extractLsb' 0 12 v).toNat)).armed = true ∧
        (s.ctx (16 * (s.fn fn.toNat).ledgBase.toNat + (BitVec.extractLsb' 0 12 v).toNat)).keysat = false ∧
        (s.ctx (16 * (s.fn fn.toNat).ledgBase.toNat + (BitVec.extractLsb' 0 12 v).toNat)).keyOne = false) ∧
    (∃ (s : State) (h : HpAttr) (fn : BitVec 10) (v : Word), s.Canonical ∧
        s.Calm ∧
        s.LetIn h ∧
        s.InService fn ∧
        BitVec.extractLsb' 24 40 v = 0 ∧
        (BitVec.extractLsb' 0 12 v).toNat < 16 * (s.fn fn.toNat).ledgN.toNat ∧
        s.lt.scramble ≠ 0 ∧
        s.ctxBusy (16 * (s.fn fn.toNat).ledgBase.toNat + (BitVec.extractLsb' 0 12 v).toNat) = false ∧
        (s.ctx (16 * (s.fn fn.toNat).ledgBase.toNat + (BitVec.extractLsb' 0 12 v).toNat)).state = CtxState.opened ∧
        (s.ctx (16 * (s.fn fn.toNat).ledgBase.toNat + (BitVec.extractLsb' 0 12 v).toNat)).armed = true ∧
        (s.ctx (16 * (s.fn fn.toNat).ledgBase.toNat + (BitVec.extractLsb' 0 12 v).toNat)).keysat = false ∧
        (s.ctx (16 * (s.fn fn.toNat).ledgBase.toNat + (BitVec.extractLsb' 0 12 v).toNat)).keyOne = true ∧
        s.windowOver (s.ctx (16 * (s.fn fn.toNat).ledgBase.toNat + (BitVec.extractLsb' 0 12 v).toNat)) = false ∧
        BitVec.extractLsb' 12 12 v = (s.ctx (16 * (s.fn fn.toNat).ledgBase.toNat + (BitVec.extractLsb' 0 12 v).toNat)).keySession) ∧
    (∃ (s : State) (h : HpAttr) (fn : BitVec 10) (v : Word), s.Canonical ∧
        s.Calm ∧
        s.LetIn h ∧
        s.InService fn ∧
        BitVec.extractLsb' 24 40 v = 0 ∧
        (BitVec.extractLsb' 0 12 v).toNat < 16 * (s.fn fn.toNat).ledgN.toNat ∧
        s.lt.scramble ≠ 0 ∧
        s.ctxBusy (16 * (s.fn fn.toNat).ledgBase.toNat + (BitVec.extractLsb' 0 12 v).toNat) = false ∧
        (s.ctx (16 * (s.fn fn.toNat).ledgBase.toNat + (BitVec.extractLsb' 0 12 v).toNat)).state = CtxState.opened ∧
        (s.ctx (16 * (s.fn fn.toNat).ledgBase.toNat + (BitVec.extractLsb' 0 12 v).toNat)).armed = true ∧
        (s.ctx (16 * (s.fn fn.toNat).ledgBase.toNat + (BitVec.extractLsb' 0 12 v).toNat)).keysat = false ∧
        (s.ctx (16 * (s.fn fn.toNat).ledgBase.toNat + (BitVec.extractLsb' 0 12 v).toNat)).keyOne = true ∧
        s.windowOver (s.ctx (16 * (s.fn fn.toNat).ledgBase.toNat + (BitVec.extractLsb' 0 12 v).toNat)) = false ∧
        BitVec.extractLsb' 12 12 v ≠ (s.ctx (16 * (s.fn fn.toNat).ledgBase.toNat + (BitVec.extractLsb' 0 12 v).toNat)).keySession ∧
        h.init = (s.ctx (16 * (s.fn fn.toNat).ledgBase.toNat + (BitVec.extractLsb' 0 12 v).toNat)).keyInit) ∧
    (∃ (s : State) (h : HpAttr) (fn : BitVec 10) (v : Word), s.Canonical ∧
        s.Calm ∧
        s.LetIn h ∧
        s.InService fn ∧
        BitVec.extractLsb' 24 40 v = 0 ∧
        (BitVec.extractLsb' 0 12 v).toNat < 16 * (s.fn fn.toNat).ledgN.toNat ∧
        s.lt.scramble ≠ 0 ∧
        s.ctxBusy (16 * (s.fn fn.toNat).ledgBase.toNat + (BitVec.extractLsb' 0 12 v).toNat) = false ∧
        (s.ctx (16 * (s.fn fn.toNat).ledgBase.toNat + (BitVec.extractLsb' 0 12 v).toNat)).state = CtxState.opened ∧
        (s.ctx (16 * (s.fn fn.toNat).ledgBase.toNat + (BitVec.extractLsb' 0 12 v).toNat)).armed = true ∧
        (s.ctx (16 * (s.fn fn.toNat).ledgBase.toNat + (BitVec.extractLsb' 0 12 v).toNat)).keysat = false ∧
        (s.ctx (16 * (s.fn fn.toNat).ledgBase.toNat + (BitVec.extractLsb' 0 12 v).toNat)).keyOne = true ∧
        s.windowOver (s.ctx (16 * (s.fn fn.toNat).ledgBase.toNat + (BitVec.extractLsb' 0 12 v).toNat)) = false ∧
        BitVec.extractLsb' 12 12 v ≠ (s.ctx (16 * (s.fn fn.toNat).ledgBase.toNat + (BitVec.extractLsb' 0 12 v).toNat)).keySession ∧
        h.init ≠ (s.ctx (16 * (s.fn fn.toNat).ledgBase.toNat + (BitVec.extractLsb' 0 12 v).toNat)).keyInit ∧
        (s.ctx (16 * (s.fn fn.toNat).ledgBase.toNat + (BitVec.extractLsb' 0 12 v).toNat)).count ≠ 0) :=
  ⟨⟨w109, ⟨1, 0, true, true, 0⟩, 1, 0, 0x440, alone_of (by decide +kernel), letIn_of (by decide +kernel), ⟨by decide +kernel, by decide +kernel⟩, by decide +kernel⟩,
    ⟨live, ⟨1, 0, true, true, 0⟩, 1, 0, 0x440, alone_of (by decide +kernel), letIn_of (by decide +kernel), ⟨by decide +kernel, by decide +kernel⟩, by decide +kernel⟩,
    ⟨w110, ⟨1, 0, true, true, 0⟩, 1, 0, 0xC40, calm_of (by decide +kernel), letIn_of (by decide +kernel), ⟨by decide +kernel, by decide +kernel⟩, by decide +kernel⟩,
    ⟨w111, 1, 0x440, ⟨1, 3, 0⟩, alone_of (by decide +kernel), by decide +kernel⟩,
    ⟨live, ⟨1, 0, true, true, 0⟩, 1, 0, canonical_of (by decide +kernel), calm_of (by decide +kernel), letIn_of (by decide +kernel), ⟨by decide +kernel, by decide +kernel⟩, by decide +kernel⟩,
    ⟨w112, ⟨1, 0, true, true, 0⟩, 1, 3, canonical_of (by decide +kernel), calm_of (by decide +kernel), letIn_of (by decide +kernel), ⟨by decide +kernel, by decide +kernel⟩, by decide +kernel⟩,
    ⟨w113, ⟨1, 0, true, true, 0⟩, 1, 3, canonical_of (by decide +kernel), calm_of (by decide +kernel), letIn_of (by decide +kernel), ⟨by decide +kernel, by decide +kernel⟩, by decide +kernel⟩,
    ⟨w113, ⟨1, 0, true, true, 0⟩, 1, 0x5003, canonical_of (by decide +kernel), calm_of (by decide +kernel), letIn_of (by decide +kernel), ⟨by decide +kernel, by decide +kernel⟩, by decide +kernel⟩,
    ⟨w114, ⟨2, 1, false, false, 7⟩, 1, 0x5003, canonical_of (by decide +kernel), calm_of (by decide +kernel), letIn_of (by decide +kernel), ⟨by decide +kernel, by decide +kernel⟩, by decide +kernel⟩⟩

/-- States and operands that meet the hypotheses of EngineRecords, clause by clause. -/
theorem test_meets_EngineRecords :
    (∃ (s : State) (ch : BitVec 4) (v : Word), s.Calm ∧
        s.live = true ∧
        s.chan ch.toNat = { } ∧
        ((s.chCfg ch.toNat).enable = false ∨ (BitVec.extractLsb' 0 17 v).toNat < 1088 ∨ BitVec.extractLsb' 17 3 v ≠ 0 ∨ BitVec.extractLsb' 56 8 v ≠ 0)) ∧
    (∃ (s : State) (ch : BitVec 4) (v : Word), s.live = true ∧
        (s.chCfg ch.toNat).enable = true ∧
        recBad v = false ∧
        s.Alone (BitVec.extractLsb' 0 17 v).toNat ∧
        (s.entry (BitVec.extractLsb' 0 17 v).toNat).state = EvState.idle ∧
        (s.entry (BitVec.extractLsb' 0 17 v).toNat).direct = false ∧
        s.chan ch.toNat = { }) ∧
    (∃ (s : State) (ch : BitVec 4) (v : Word), s.live = true ∧
        (s.chCfg ch.toNat).enable = true ∧
        recBad v = false ∧
        s.Alone (BitVec.extractLsb' 0 17 v).toNat ∧
        (s.entry (BitVec.extractLsb' 0 17 v).toNat).state = EvState.idle ∧
        (s.entry (BitVec.extractLsb' 0 17 v).toNat).direct = false ∧
        (s.chan ch.toNat).held = some v) ∧
    (∃ (s : State) (ch : BitVec 4) (v : Word), s.Calm ∧
        s.live = true ∧
        (s.chCfg ch.toNat).enable = true ∧
        recBad v = false ∧
        s.busy (BitVec.extractLsb' 0 17 v).toNat = false ∧
        (s.entry (BitVec.extractLsb' 0 17 v).toNat).state ∈ [EvState.posted, EvState.queued, EvState.offered, EvState.claimedRepost, EvState.heldCurfew] ∧
        (s.entry (BitVec.extractLsb' 0 17 v).toNat).coalesce = false ∧
        ((s.chCfg ch.toNat).sens = false ∨ (s.entry (BitVec.extractLsb' 0 17 v).toNat).direct = false) ∧
        s.chan ch.toNat = { }) ∧
    (∃ (s : State) (ch : BitVec 4) (v : Word), s.Calm ∧
        s.live = true ∧
        (s.chCfg ch.toNat).enable = true ∧
        recBad v = false ∧
        s.busy (BitVec.extractLsb' 0 17 v).toNat = false ∧
        (s.entry (BitVec.extractLsb' 0 17 v).toNat).state ∈ [EvState.posted, EvState.queued, EvState.offered, EvState.claimedRepost, EvState.heldCurfew] ∧
        (s.entry (BitVec.extractLsb' 0 17 v).toNat).coalesce = false ∧
        ((s.chCfg ch.toNat).sens = false ∨ (s.entry (BitVec.extractLsb' 0 17 v).toNat).direct = false) ∧
        (s.chan ch.toNat).held = some v ∧
        s.Canonical) ∧
    (∃ (s : State) (ch : BitVec 4), (s.chan ch.toNat).ack = true) ∧
    (∃ (s : State) (ch : BitVec 4), (s.chan ch.toNat).ack = false ∧
        (s.chan ch.toNat).held ≠ none) :=
  ⟨⟨live, 0, 0x43F, calm_of (by decide +kernel), by decide +kernel⟩,
    ⟨live, 0, 0x440, by decide +kernel, by decide +kernel, by decide +kernel, alone_of (by decide +kernel), by decide +kernel⟩,
    ⟨w115, 0, 0x5A5A500440, by decide +kernel, by decide +kernel, by decide +kernel, alone_of (by decide +kernel), by decide +kernel⟩,
    ⟨w116, 0, 0x440, calm_of (by decide +kernel), by decide +kernel⟩,
    ⟨w117, 0, 0x5A5A500440, calm_of (by decide +kernel), by decide +kernel, by decide +kernel, by decide +kernel, by decide +kernel, by decide +kernel, by decide +kernel, by decide +kernel, by decide +kernel, canonical_of (by decide +kernel)⟩,
    ⟨w118, 5, by decide +kernel⟩,
    ⟨w115, 0, by decide +kernel⟩⟩

/-- States and operands that meet the hypotheses of WiredAndInternalPosts, clause by clause. -/
theorem test_meets_WiredAndInternalPosts :
    (∃ (s : State) (n : BitVec 10) (v : Bool), s.Alone (64 + n.toNat) ∧
        s.live = true ∧
        s.np.porst = true ∧
        s.wf.enabled = true ∧
        bit s.wf.level n.toNat = false ∧
        s.lineActive n.toNat = false ∧
        (v != bit s.wf.activeLow n.toNat) = true ∧
        (s.entry (64 + n.toNat)).state = EvState.idle ∧
        (s.entry (64 + n.toNat)).direct = false) ∧
    (∃ (s : State) (n : BitVec 10) (v : Bool), s.Alone (64 + n.toNat) ∧
        s.live = true ∧
        s.np.porst = true ∧
        s.wf.enabled = true ∧
        bit s.wf.level n.toNat = false ∧
        s.lineActive n.toNat = false ∧
        (v != bit s.wf.activeLow n.toNat) = true ∧
        (s.entry (64 + n.toNat)).state ∈ [EvState.heldJoin, EvState.heldTwokey, EvState.faulted]) ∧
    (∃ (s : State) (n : BitVec 10) (v : Bool), s.Calm ∧
        s.live = true ∧
        s.np.porst = true ∧
        (s.wf.enabled = false ∨ (v != bit s.wf.activeLow n.toNat) = false)) ∧
    (∃ (s : State) (n : BitVec 10), s.Alone (64 + n.toNat) ∧
        s.live = true ∧
        bit s.wf.pend n.toNat = true ∧
        (s.entry (64 + n.toNat)).state = EvState.idle ∧
        (s.entry (64 + n.toNat)).direct = false) ∧
    (∃ (s : State) (n : BitVec 10), s.Alone (64 + n.toNat) ∧
        s.live = true ∧
        bit s.wf.pend n.toNat = false) ∧
    (∃ (s : State) (src : BitVec 6) (d : BitVec 24), s.Alone src.toNat ∧
        s.live = true ∧
        tget none s.lt.srcPend src.toNat = some d ∧
        (s.entry src.toNat).state = EvState.idle ∧
        (s.entry src.toNat).direct = false) ∧
    (∃ (s : State) (src : BitVec 6), s.Alone src.toNat ∧
        s.live = true ∧
        tget none s.lt.srcPend src.toNat = none) :=
  ⟨⟨live, 0, true, alone_of (by decide +kernel), by decide +kernel⟩,
    ⟨w119, 0, true, alone_of (by decide +kernel), by decide +kernel⟩,
    ⟨live, 0, false, calm_of (by decide +kernel), by decide +kernel⟩,
    ⟨w120, 0, alone_of (by decide +kernel), by decide +kernel⟩,
    ⟨live, 0, alone_of (by decide +kernel), by decide +kernel⟩,
    ⟨w121, 1, 5, alone_of (by decide +kernel), by decide +kernel⟩,
    ⟨live, 0, alone_of (by decide +kernel), by decide +kernel⟩⟩

/-- States and operands that meet the hypotheses of TableWindows, clause by clause. -/
theorem test_meets_TableWindows :
    (∃ (e : BitVec 17) (v : Word) (s : State) (h : HpAttr), s.Calm ∧
        s.LetIn h ∧
        True) ∧
    (∃ (s : State) (h : HpAttr) (e : BitVec 17) (v : Word), s.Calm ∧
        s.LetIn h ∧
        s.busy e.toNat = false ∧
        ¬(s.entry e.toNat).state ∈ [EvState.idle, EvState.faulted]) ∧
    (∃ (s : State) (h : HpAttr) (e : BitVec 17) (v : Word), s.Alone e.toNat ∧
        s.LetIn h ∧
        (s.entry e.toNat).state ∈ [EvState.idle, EvState.faulted] ∧
        (isWired e.toNat = false ∨ s.wf.enabled = false) ∧
        BitVec.extractLsb' 0 4 v = 0 ∧
        BitVec.extractLsb' 61 3 v = 0 ∧
        s.setupFault { state := (entryOfWords EvState.idle v ((tget none s.lt.word1 e.toNat).getD (s.entry e.toNat).word1)).state, mask := (entryOfWords EvState.idle v ((tget none s.lt.word1 e.toNat).getD (s.entry e.toNat).word1)).mask, level := (entryOfWords EvState.idle v ((tget none s.lt.word1 e.toNat).getD (s.entry e.toNat).word1)).level, sensitive := (entryOfWords EvState.idle v ((tget none s.lt.word1 e.toNat).getD (s.entry e.toNat).word1)).sensitive, direct := (entryOfWords EvState.idle v ((tget none s.lt.word1 e.toNat).getD (s.entry e.toNat).word1)).direct, coalesce := (entryOfWords EvState.idle v ((tget none s.lt.word1 e.toNat).getD (s.entry e.toNat).word1)).coalesce, activeLow := (entryOfWords EvState.idle v ((tget none s.lt.word1 e.toNat).getD (s.entry e.toNat).word1)).activeLow, ctxv := (entryOfWords EvState.idle v ((tget none s.lt.word1 e.toNat).getD (s.entry e.toNat).word1)).ctxv, priority := (entryOfWords EvState.idle v ((tget none s.lt.word1 e.toNat).getD (s.entry e.toNat).word1)).priority, target := (entryOfWords EvState.idle v ((tget none s.lt.word1 e.toNat).getD (s.entry e.toNat).word1)).target, tmode := (entryOfWords EvState.idle v ((tget none s.lt.word1 e.toNat).getD (s.entry e.toNat).word1)).tmode, function := (s.entry e.toNat).function, context := (entryOfWords EvState.idle v ((tget none s.lt.word1 e.toNat).getD (s.entry e.toNat).word1)).context, cls := (entryOfWords EvState.idle v ((tget none s.lt.word1 e.toNat).getD (s.entry e.toNat).word1)).cls, payload := (entryOfWords EvState.idle v ((tget none s.lt.word1 e.toNat).getD (s.entry e.toNat).word1)).payload, entryPc := (entryOfWords EvState.idle v ((tget none s.lt.word1 e.toNat).getD (s.entry e.toNat).word1)).entryPc, version := (entryOfWords EvState.idle v ((tget none s.lt.word1 e.toNat).getD (s.entry e.toNat).word1)).version, merges := (s.entry e.toNat).merges } = none) ∧
    (∃ (c : W12) (w : BitVec 3) (v : Word) (s : State) (h : HpAttr), w ≠ 0 ∧
        s.Calm ∧
        s.LetIn h ∧
        True) ∧
    (∃ (s : State) (h : HpAttr) (c : W12) (v : Word), s.Calm ∧
        s.LetIn h ∧
        s.ctxLock (BitVec.toNat c) = none ∧
        s.ctxWait (BitVec.toNat c) = false ∧
        (s.ctx (BitVec.toNat c)).folv = false ∧
        BitVec.getLsbD v 7 = false ∧
        (s.ctx (BitVec.toNat c)).state = CtxState.opened) ∧
    (∃ (s : State) (h : HpAttr) (c : W12) (v : Word), s.Calm ∧
        s.LetIn h ∧
        s.ctxLock (BitVec.toNat c) = none ∧
        s.ctxWait (BitVec.toNat c) = false ∧
        (s.ctx (BitVec.toNat c)).folv = false ∧
        BitVec.getLsbD v 7 = false ∧
        (s.ctx (BitVec.toNat c)).state ≠ CtxState.opened ∧
        BitVec.extractLsb' 0 2 v = 1 ∧
        v &&& ctxReserved 0 = 0 ∧
        (∀ (i : Nat), i ∈ [1, 2, 3, 4, 5, 6, 7] → s.ledgWord (BitVec.toNat c) i &&& ctxReserved i = 0)) :=
  ⟨⟨1, 0, live, ⟨1, 0, true, true, 0⟩, calm_of (by decide +kernel), letIn_of (by decide +kernel), trivial⟩,
    ⟨w122, ⟨1, 0, true, true, 0⟩, 1, 0, calm_of (by decide +kernel), letIn_of (by decide +kernel), by decide +kernel⟩,
    ⟨live, ⟨1, 0, true, true, 0⟩, 1, 0, alone_of (by decide +kernel), letIn_of (by decide +kernel), by decide +kernel⟩,
    ⟨7, 1, 0, live, ⟨1, 0, true, true, 0⟩, by decide +kernel, calm_of (by decide +kernel), letIn_of (by decide +kernel), trivial⟩,
    ⟨w123, ⟨1, 0, true, true, 0⟩, 7, 0, calm_of (by decide +kernel), letIn_of (by decide +kernel), by decide +kernel⟩,
    ⟨live, ⟨1, 0, true, true, 0⟩, 7, 1, calm_of (by decide +kernel), letIn_of (by decide +kernel), by decide +kernel⟩⟩

/-- States and operands that meet the hypotheses of ClaimsAndCompletes, clause by clause. -/
theorem test_meets_ClaimsAndCompletes :
    (∃ (s : State) (h : HpAttr) (n : BitVec 8) (e : Nat), s.Canonical ∧
        s.Calm ∧
        s.LetIn h ∧
        s.gb.enable = false ∧
        s.agentAt n.toNat = false ∧
        (s.target n.toNat).enable = true ∧
        (s.target n.toNat).offered = some e ∧
        (s.target n.toNat).front = [e] ∧
        (s.target n.toNat).bands = [] ∧
        e < nEntries ∧
        (s.entry e).state = EvState.offered ∧
        (s.side e).placed = some n ∧
        (s.side e).holder = none ∧
        (s.side e).room = none ∧
        s.busy e = false) ∧
    (∃ (s : State) (h : HpAttr) (n : BitVec 8), s.Calm ∧
        s.LetIn h ∧
        s.agentAt n.toNat = false ∧
        ((s.target n.toNat).enable = false ∨ (s.target n.toNat).offered = none)) ∧
    (∃ (s : State) (h : HpAttr) (n : BitVec 8), s.Calm ∧
        s.LetIn h ∧
        s.agentAt n.toNat = true) ∧
    (∃ (s : State) (h : HpAttr) (n : BitVec 8) (v : Word) (k : HeldEv), s.Canonical ∧
        s.Calm ∧
        s.LetIn h ∧
        s.gb.enable = false ∧
        s.agentAt n.toNat = false ∧
        s.NoCandidate n.toNat ∧
        (s.target n.toNat).held = [k] ∧
        k.cand < nEntries ∧
        BitVec.extractLsb' 24 40 v = 0 ∧
        BitVec.extractLsb' 0 24 v = BitVec.ofNat 24 k.cand ∧
        (s.entry k.cand).state = EvState.claimed ∧
        (s.side k.cand).placed = none ∧
        (s.side k.cand).holder = some n ∧
        (s.side k.cand).room = none ∧
        s.busy k.cand = false ∧
        (isWired k.cand = false ∨ s.wf.enabled = false)) ∧
    (∃ (s : State) (h : HpAttr) (n : BitVec 8) (v : Word), s.Calm ∧
        s.LetIn h ∧
        s.agentAt n.toNat = false ∧
        v = 16777215) ∧
    (∃ (s : State) (h : HpAttr) (n : BitVec 8) (v : Word), s.Calm ∧
        s.LetIn h ∧
        s.agentAt n.toNat = false ∧
        BitVec.extractLsb' 24 40 v = 0 ∧
        v ≠ 16777215 ∧
        (s.target n.toNat).held = [] ∧
        (s.target n.toNat).stray = false) ∧
    (∃ (n : BitVec 8) (v : Word) (s : State) (h : HpAttr), s.Calm ∧
        s.LetIn h ∧
        (s.agentAt n.toNat = true ∨ BitVec.extractLsb' 24 40 v ≠ 0)) :=
  ⟨⟨w124, ⟨1, 0, true, true, 0⟩, 3, 0x500, canonical_of (by decide +kernel), calm_of (by decide +kernel), letIn_of (by decide +kernel), by decide +kernel⟩,
    ⟨live, ⟨1, 0, true, true, 0⟩, 0, calm_of (by decide +kernel), letIn_of (by decide +kernel), by decide +kernel⟩,
    ⟨w125, ⟨1, 0, true, true, 0⟩, 3, calm_of (by decide +kernel), letIn_of (by decide +kernel), by decide +kernel⟩,
    ⟨w126, ⟨1, 0, true, true, 0⟩, 3, 0x500, ⟨0x500, 0x100, 5, false⟩, canonical_of (by decide +kernel), calm_of (by decide +kernel), letIn_of (by decide +kernel), by decide +kernel, by decide +kernel, noCandidate_of (by decide +kernel), by decide +kernel⟩,
    ⟨live, ⟨1, 0, true, true, 0⟩, 0, 0xFFFFFF, calm_of (by decide +kernel), letIn_of (by decide +kernel), by decide +kernel⟩,
    ⟨live, ⟨1, 0, true, true, 0⟩, 0, 0, calm_of (by decide +kernel), letIn_of (by decide +kernel), by decide +kernel⟩,
    ⟨0, 0xFFFFFFFFFFFFFFFF, live, ⟨1, 0, true, true, 0⟩, calm_of (by decide +kernel), letIn_of (by decide +kernel), by decide +kernel⟩⟩

/-- States and operands that meet the hypotheses of TargetRegisters, clause by clause. -/
theorem test_meets_TargetRegisters :
    (∃ (s : State) (h : HpAttr) (n : BitVec 8) (v : Word) (e : Nat), s.Canonical ∧
        s.Calm ∧
        s.LetIn h ∧
        s.gb.enable = false ∧
        (s.target n.toNat).front = [e] ∧
        (s.target n.toNat).bands = [] ∧
        (s.target n.toNat).offered = some e ∧
        (s.target n.toNat).holdLimit = 0 ∧
        e < nEntries ∧
        (s.entry e).state = EvState.offered ∧
        (s.side e).placed = some n ∧
        (s.side e).holder = none ∧
        (s.side e).room = none ∧
        s.busy e = false ∧
        (s.entry e).priority ≤ BitVec.extractLsb' 0 12 v) ∧
    (∃ (n : BitVec 8) (v : Word) (s : State) (h : HpAttr), s.Calm ∧
        s.LetIn h ∧
        s.Canonical ∧
        s.NoCandidate n.toNat ∧
        (∀ (p : Nat × Group), p ∈ s.rn.groups → p.snd.orphans = [])) ∧
    (∃ (n : BitVec 8) (v : Word) (s : State) (h : HpAttr), s.Calm ∧
        s.LetIn h ∧
        s.Canonical ∧
        (s.group n.toNat).orphans = []) ∧
    (∃ (s : State) (h : HpAttr) (n : BitVec 8) (k : BitVec 2) (v : Word), s.Canonical ∧
        s.Calm ∧
        s.LetIn h ∧
        (s.group n.toNat).orphans = []) :=
  ⟨⟨w127, ⟨1, 0, true, true, 0⟩, 3, 0x500, 0x500, canonical_of (by decide +kernel), calm_of (by decide +kernel), letIn_of (by decide +kernel), by decide +kernel⟩,
    ⟨3, 0x500, live, ⟨1, 0, true, true, 0⟩, calm_of (by decide +kernel), letIn_of (by decide +kernel), canonical_of (by decide +kernel), noCandidate_of (by decide +kernel), by decide +kernel⟩,
    ⟨3, 0x500, live, ⟨1, 0, true, true, 0⟩, calm_of (by decide +kernel), letIn_of (by decide +kernel), canonical_of (by decide +kernel), by decide +kernel⟩,
    ⟨live, ⟨1, 0, true, true, 0⟩, 3, 0, 0x500, canonical_of (by decide +kernel), calm_of (by decide +kernel), letIn_of (by decide +kernel), by decide +kernel⟩⟩

/-- States and operands that meet the hypotheses of PlacementsAndTimeouts, clause by clause. -/
theorem test_meets_PlacementsAndTimeouts :
    (∃ (s : State) (e : BitVec 17) (reqs : List (Source × Nat)), s.Canonical ∧
        s.Calm ∧
        s.live = true ∧
        s.rn.heldPl = [{ event := e.toNat, reqs := reqs }] ∧
        (∀ (r : Source × Nat), r ∈ reqs → s.unsettledBefore r.fst r.snd = false) ∧
        (s.entry e.toNat).tmode = 0 ∧
        (s.entry e.toNat).ctxv = false ∧
        s.NoCandidate ((s.entry e.toNat).target.toNat % 256) ∧
        s.enabled ((s.entry e.toNat).target.toNat % 256) = false) ∧
    (∃ (e : BitVec 17) (s : State), s.Calm ∧
        s.live = true ∧
        s.placementReady e.toNat = false) ∧
    (∃ (s : State) (n : BitVec 8) (e : Nat), s.mirrorOn = false ∧
        s.live = true ∧
        (s.target n.toNat).offered = some e ∧
        e < nEntries ∧
        (s.target n.toNat).offerLim ≠ 0 ∧
        16 * (s.target n.toNat).offerLim.toNat < s.age (s.target n.toNat).offerAt ∧
        s.busy e = false ∧
        s.rn.offerQ.length < 128) ∧
    (∃ (s : State) (n : BitVec 8) (e : Nat), s.mirrorOn = false ∧
        s.live = true ∧
        (s.target n.toNat).offered = some e ∧
        e < nEntries ∧
        (s.target n.toNat).offerLim ≠ 0 ∧
        16 * (s.target n.toNat).offerLim.toNat < s.age (s.target n.toNat).offerAt ∧
        s.busy e = false ∧
        128 ≤ s.rn.offerQ.length ∧
        s.Calm ∧
        ¬{ event := e, target := n, since := (s.target n.toNat).offerAt } ∈ s.rn.heldOff) ∧
    (∃ (s : State) (e : BitVec 17) (n : BitVec 8) (k : HeldEv), s.mirrorOn = false ∧
        s.live = true ∧
        (s.side e.toNat).holder = some n ∧
        List.find? (fun x => decide (x.cand = e.toNat)) (s.target n.toNat).held = some k ∧
        k.limit ≠ 0 ∧
        k.fired = false ∧
        1024 * k.limit.toNat < s.age k.since ∧
        s.rn.svcQ.length < 128) ∧
    (∃ (s : State) (e : BitVec 17) (n : BitVec 8) (k : HeldEv), s.mirrorOn = false ∧
        s.live = true ∧
        (s.side e.toNat).holder = some n ∧
        List.find? (fun x => decide (x.cand = e.toNat)) (s.target n.toNat).held = some k ∧
        k.limit ≠ 0 ∧
        k.fired = false ∧
        1024 * k.limit.toNat < s.age k.since ∧
        128 ≤ s.rn.svcQ.length ∧
        s.Calm ∧
        ¬{ event := e.toNat, target := n, since := k.since } ∈ s.rn.heldSvc) ∧
    (∃ (s : State) (k : HeldTmo) (l : List HeldTmo), s.mirrorOn = false ∧
        s.live = true ∧
        s.rn.heldOff = k :: l ∧
        s.rn.offerQ.length < 128 ∧
        s.busy k.event = false ∧
        (s.target k.target.toNat).offered = some k.event ∧
        (s.target k.target.toNat).offerAt = k.since) ∧
    (∃ (s : State) (k : HeldTmo) (l : List HeldTmo), s.mirrorOn = false ∧
        s.live = true ∧
        s.rn.heldOff = k :: l ∧
        s.rn.offerQ.length < 128 ∧
        s.busy k.event = false ∧
        (s.target k.target.toNat).offered ≠ some k.event ∧
        s.Calm) ∧
    (∃ (s : State) (k : HeldTmo) (l : List HeldTmo), s.mirrorOn = false ∧
        s.live = true ∧
        s.rn.heldSvc = k :: l ∧
        s.rn.svcQ.length < 128 ∧
        (∃ h, h ∈ (s.target k.target.toNat).held ∧ h.cand = k.event ∧ h.since = k.since ∧ h.fired = false)) :=
  ⟨⟨w128, 0x500, [], canonical_of (by decide +kernel), calm_of (by decide +kernel), by decide +kernel, by decide +kernel, by decide +kernel, by decide +kernel, by decide +kernel, noCandidate_of (by decide +kernel), by decide +kernel⟩,
    ⟨0x47, live, calm_of (by decide +kernel), by decide +kernel⟩,
    ⟨w129, 3, 0x500, by decide +kernel⟩,
    ⟨w130, 3, 0x500, by decide +kernel, by decide +kernel, by decide +kernel, by decide +kernel, by decide +kernel, by decide +kernel, by decide +kernel, by decide +kernel, calm_of (by decide +kernel), by decide +kernel⟩,
    ⟨w131, 0x500, 3, ⟨0x500, 0x100, 5, false⟩, by decide +kernel⟩,
    ⟨w132, 0x500, 3, ⟨0x500, 0x100, 5, false⟩, by decide +kernel, by decide +kernel, by decide +kernel, by decide +kernel, by decide +kernel, by decide +kernel, by decide +kernel, by decide +kernel, calm_of (by decide +kernel), by decide +kernel⟩,
    ⟨w133, ⟨0x500, 3, 0x100⟩, [], by decide +kernel⟩,
    ⟨w134, ⟨0x500, 3, 0x100⟩, [], by decide +kernel, by decide +kernel, by decide +kernel, by decide +kernel, by decide +kernel, by decide +kernel, calm_of (by decide +kernel)⟩,
    ⟨w135, ⟨0x500, 3, 0x100⟩, [], by decide +kernel⟩⟩

/-- States and operands that meet the hypotheses of CallListFirings, clause by clause, part 1. -/
theorem test_meets_CallListFirings :
    (∃ (s : State) (c : W12) (j : Nat), s.Canonical ∧
        s.mirrorOn = false ∧
        s.live = true ∧
        s.OnlyContext (BitVec.toNat c) ∧
        (s.ctx (BitVec.toNat c)).dlv = true ∧
        (s.ctx (BitVec.toNat c)).boostEnd = false ∧
        ((s.ctx (BitVec.toNat c)).expired = true ∨ reached s.now (s.ctx (BitVec.toNat c)).deadline = false) ∧
        (s.ctx (BitVec.toNat c)).keyOne = false ∧
        s.stepFrom (s.ctx (BitVec.toNat c)).curve.toNat (s.ctx (BitVec.toNat c)).step.toNat = some j ∧
        reached s.now ((s.ctx (BitVec.toNat c)).deadline - BitVec.setWidth 48 (s.curve (s.ctx (BitVec.toNat c)).curve.toNat j).slack) = true ∧
        s.stepFrom (s.ctx (BitVec.toNat c)).curve.toNat (j + 1) = none ∧
        (∀ (e : Nat), e ∈ s.chain (BitVec.toNat c) → s.busy e = false)) ∧
    (∃ (s : State) (c : W12), s.Canonical ∧
        s.mirrorOn = false ∧
        s.live = true ∧
        s.OnlyContext (BitVec.toNat c) ∧
        (s.ctx (BitVec.toNat c)).dlv = true ∧
        (s.ctx (BitVec.toNat c)).boostEnd = true ∧
        (s.ctx (BitVec.toNat c)).expired = false ∧
        reached s.now (s.ctx (BitVec.toNat c)).deadline = true ∧
        (s.ctx (BitVec.toNat c)).keyOne = false ∧
        s.lg.expQ.length < 256 ∧
        s.lg.heldExp = []) ∧
    (∃ (s : State) (c : W12), s.Canonical ∧
        s.mirrorOn = false ∧
        s.live = true ∧
        s.OnlyContext (BitVec.toNat c) ∧
        (s.ctx (BitVec.toNat c)).dlv = false ∧
        (s.ctx (BitVec.toNat c)).keyOne = true ∧
        s.keyWindow (s.ctx (BitVec.toNat c)).winsel.toNat ≠ 0 ∧
        reached s.now ((s.ctx (BitVec.toNat c)).keyFirst + BitVec.ofNat 48 ((s.keyWindow (s.ctx (BitVec.toNat c)).winsel.toNat).toNat * 1024)) = true ∧
        s.lg.keyQ.length < 64 ∧
        s.lg.heldWin = []) ∧
    (∃ (s : State) (c : W12) (j : Nat), s.Calm ∧
        s.live = true ∧
        s.fires (BitVec.toNat c) NextKind.boost = true ∧
        s.chain (BitVec.toNat c) = [] ∧
        s.stepFrom (s.ctx (BitVec.toNat c)).curve.toNat (s.ctx (BitVec.toNat c)).step.toNat = some j ∧
        reached s.now (s.stepInstant (s.ctx (BitVec.toNat c)) j) = true ∧
        s.stepFrom (s.ctx (BitVec.toNat c)).curve.toNat (j + 1) = none) ∧
    (∃ (c : W12) (s : State), s.Calm ∧
        s.live = true ∧
        s.fires (BitVec.toNat c) NextKind.boost = false) ∧
    (∃ (s : State) (c : W12), s.mirrorOn = false ∧
        s.live = true ∧
        s.fires (BitVec.toNat c) NextKind.expiry = true ∧
        s.expFull = false) :=
  ⟨⟨w136, 7, 2, canonical_of (by decide +kernel), by decide +kernel, by decide +kernel, onlyContext_of (by decide +kernel), by decide +kernel⟩,
    ⟨w137, 7, canonical_of (by decide +kernel), by decide +kernel, by decide +kernel, onlyContext_of (by decide +kernel), by decide +kernel⟩,
    ⟨w138, 7, canonical_of (by decide +kernel), by decide +kernel, by decide +kernel, onlyContext_of (by decide +kernel), by decide +kernel⟩,
    ⟨w139, 7, 2, calm_of (by decide +kernel), by decide +kernel⟩,
    ⟨7, live, calm_of (by decide +kernel), by decide +kernel⟩,
    ⟨w140, 7, by decide +kernel⟩⟩

/-- States and operands that meet the hypotheses of CallListFirings, clause by clause, part 2. -/
theorem test_meets_CallListFirings_more :
    (∃ (s : State) (c : W12), s.mirrorOn = false ∧
        s.live = true ∧
        s.fires (BitVec.toNat c) NextKind.expiry = true ∧
        256 ≤ s.lg.expQ.length ∧
        s.Calm ∧
        ¬BitVec.toNat c ∈ s.lg.heldExp) ∧
    (∃ (c : W12) (s : State), s.Calm ∧
        s.live = true ∧
        s.fires (BitVec.toNat c) NextKind.expiry = false) ∧
    (∃ (s : State) (c : W12), s.mirrorOn = false ∧
        s.live = true ∧
        s.fires (BitVec.toNat c) NextKind.window = true ∧
        s.keyFull = false) ∧
    (∃ (c : W12) (s : State), s.Calm ∧
        s.live = true ∧
        s.fires (BitVec.toNat c) NextKind.window = false) ∧
    (∃ (s : State) (c : Nat) (l : List Nat), s.mirrorOn = false ∧
        s.live = true ∧
        s.lg.heldExp = c :: l ∧
        (s.fn (s.ctx c).owner.toNat).state = FnState.inService ∧
        s.lg.expQ.length < 256 ∧
        s.ctxLock c = none ∧
        s.ctxWait c = false ∧
        (s.ctx c).expired = false) ∧
    (∃ (s : State) (c : Nat) (l : List (Nat × Bool)), s.mirrorOn = false ∧
        s.live = true ∧
        s.lg.keyQ.length < 64 ∧
        s.lg.heldWin = (c, true) :: l) ∧
    (∃ (s : State) (c : Nat) (l : List (Nat × Bool)), s.mirrorOn = false ∧
        s.live = true ∧
        s.lg.keyQ.length < 64 ∧
        s.lg.heldWin = (c, false) :: l ∧
        (s.fn (s.ctx c).owner.toNat).state = FnState.inService ∧
        s.ctxLock c = none ∧
        s.ctxWait c = false) :=
  ⟨⟨w141, 7, by decide +kernel, by decide +kernel, by decide +kernel, by decide +kernel, calm_of (by decide +kernel), by decide +kernel⟩,
    ⟨7, live, calm_of (by decide +kernel), by decide +kernel⟩,
    ⟨w142, 7, by decide +kernel⟩,
    ⟨7, live, calm_of (by decide +kernel), by decide +kernel⟩,
    ⟨w143, 7, [], by decide +kernel⟩,
    ⟨w144, 7, [], by decide +kernel⟩,
    ⟨w145, 7, [], by decide +kernel⟩⟩

/-- States and operands that meet the hypotheses of CurfewAndNoise, clause by clause. -/
theorem test_meets_CurfewAndNoise :
    (∃ (s : State) (e : BitVec 17) (k : Hold), s.Alone e.toNat ∧
        s.live = true ∧
        s.curfewDue e.toNat = some k ∧
        (s.entry e.toNat).state = EvState.heldCurfew) ∧
    (∃ (e : BitVec 17) (s : State), s.Calm ∧
        s.live = true ∧
        s.curfewDue e.toNat = none) ∧
    (∃ (v : BitVec 32) (s : State), s.Calm ∧
        s.portUp = true ∧
        s.live = true ∧
        s.jreqUp = true ∧
        s.cf.jdrop = false ∧
        s.fallback = false ∧
        s.cf.pool.length < 16 ∧
        (v ≠ s.cf.lastWord ∨ s.cf.equalRun = 0)) ∧
    (∃ (v : BitVec 32) (s : State), s.Calm ∧
        s.portUp = true ∧
        s.jreqUp = false) ∧
    (∃ (v : BitVec 32) (s : State), s.Calm ∧
        s.portUp = true ∧
        s.jreqUp = true ∧
        (s.live = false ∨ s.fallback = true ∨ s.cf.jdrop = true)) ∧
    (∃ (s : State) (v : BitVec 32), s.mirrorOn = false ∧
        s.live = true ∧
        s.np.porst = true ∧
        s.jreqUp = true ∧
        s.cf.jdrop = false ∧
        s.fallback = false ∧
        v = s.cf.lastWord ∧
        s.cf.equalRun = 3) ∧
    (∃ (s : State), s.mirrorOn = false ∧
        s.portUp = true ∧
        s.awake = true ∧
        s.cf.fail = false) ∧
    (∃ (s : State), s.Calm ∧
        s.portUp = true ∧
        True) ∧
    (∃ (s : State), s.mirrorOn = false ∧
        s.portUp = true ∧
        s.awake = true ∧
        s.cf.ready = false) ∧
    (∃ (s : State), s.Calm ∧
        s.portUp = true ∧
        s.cf.ready = true) ∧
    (∃ (s : State) (h : HpAttr), s.Calm ∧
        s.LetIn h ∧
        s.cf.ready = true ∧
        s.cf.fail = false) ∧
    (∃ (s : State) (h : HpAttr), s.Calm ∧
        s.LetIn h ∧
        (s.cf.ready = false ∨ s.cf.fail = true)) :=
  ⟨⟨w146, 0x500, ⟨0x500, 0x64, some 3, false, 2, 4⟩, alone_of (by decide +kernel), by decide +kernel⟩,
    ⟨0x500, live, calm_of (by decide +kernel), by decide +kernel⟩,
    ⟨0xDEADBEEF, w147, calm_of (by decide +kernel), by decide +kernel⟩,
    ⟨0xDEADBEEF, live, calm_of (by decide +kernel), by decide +kernel⟩,
    ⟨0xDEADBEEF, w148, calm_of (by decide +kernel), by decide +kernel⟩,
    ⟨w149, 0, by decide +kernel⟩,
    ⟨live, by decide +kernel⟩,
    ⟨live, calm_of (by decide +kernel), by decide +kernel, trivial⟩,
    ⟨live, by decide +kernel⟩,
    ⟨w147, calm_of (by decide +kernel), by decide +kernel⟩,
    ⟨w147, ⟨1, 0, true, true, 0⟩, calm_of (by decide +kernel), letIn_of (by decide +kernel), by decide +kernel⟩,
    ⟨live, ⟨1, 0, true, true, 0⟩, calm_of (by decide +kernel), letIn_of (by decide +kernel), by decide +kernel⟩⟩

/-- States and operands that meet the hypotheses of TasksAndDispatch, clause by clause. -/
theorem test_meets_TasksAndDispatch :
    (∃ (s : State) (k : BitVec 4) (j : Nat) (b : Nat) (e : Nat), s.Canonical ∧
        s.Calm ∧
        s.live = true ∧
        s.adopter k.toNat = some j ∧
        s.nextBank k.toNat = some (b, e) ∧
        s.gl.hold = false ∧
        (s.queue j).tasks.length < 64) ∧
    (∃ (k : BitVec 4) (s : State), s.Calm ∧
        s.live = true ∧
        s.gl.hold = true) ∧
    (∃ (s : State) (r : RunRef) (e : Nat), s.Canonical ∧
        s.Calm ∧
        s.live = true ∧
        r.wf = true ∧
        s.mayBegin r = true ∧
        (s.runPorter r).task r.ctx = some e ∧
        e < nEntries ∧
        s.busy e = false ∧
        s.dispatchable e = true ∧
        s.runsOf (s.entry e).function.toNat < s.shareOf (s.entry e).function.toNat ∧
        s.copyBad r.cluster.toNat (s.entry e).entryPc.toNat = false ∧
        (s.copyWord r.cluster.toNat (s.entry e).entryPc.toNat).toNat / 2 ^ 30 = 61) ∧
    (∃ (s : State) (r : RunRef) (j : Nat) (e : Nat), s.Canonical ∧
        s.Calm ∧
        s.live = true ∧
        r.wf = true ∧
        s.mayBegin r = true ∧
        (s.runPorter r).task0 = none ∧
        (s.runPorter r).task1 = none ∧
        (s.queue r.cluster.toNat).tasks = [] ∧
        s.fallback = true ∧
        s.victim r.cluster.toNat (s.runPorter r).stealCtr.toNat = some j ∧
        (s.queue j).tasks.getLast? = some e) :=
  ⟨⟨w150, 3, 3, 3, 0x503, canonical_of (by decide +kernel), calm_of (by decide +kernel), by decide +kernel⟩,
    ⟨0, w151, calm_of (by decide +kernel), by decide +kernel⟩,
    ⟨w152, ⟨2, 0, 0⟩, 0x500, canonical_of (by decide +kernel), calm_of (by decide +kernel), by decide +kernel⟩,
    ⟨w153, ⟨2, 0, 0⟩, 3, 0x503, canonical_of (by decide +kernel), calm_of (by decide +kernel), by decide +kernel⟩⟩

/-- States and operands that meet the hypotheses of BankArbiters, clause by clause. -/
theorem test_meets_BankArbiters :
    (∃ (s : State) (a : BitVec 6) (reqs : List ArbReq) (q : ArbReq), s.Canonical ∧
        s.Calm ∧
        s.live = true ∧
        (Instr.arbGrant a reqs).wf = true ∧
        (∀ (m : ArbReq), m ∈ reqs → m.run = none) ∧
        (List.map (fun x => x.slot) reqs).Nodup ∧
        (∀ (x : ArbWait), x ∈ s.ab.waits → x.arb ≠ a) ∧
        q ∈ reqs ∧
        (∀ (m : ArbReq), m ∈ reqs → m.slot ≠ q.slot → s.slotBefore a.toNat q.slot.toNat m.slot.toNat = true)) ∧
    (∃ (s : State) (x : ArbWait), s.Canonical ∧
        s.Calm ∧
        s.live = true ∧
        x.arb.toNat < 40 ∧
        x.slot.toNat < 24 ∧
        x.run = none ∧
        s.ab.waits = [x]) ∧
    (∃ (a : BitVec 6) (s : State), a.toNat < 40 ∧
        s.Calm ∧
        s.live = true ∧
        (∀ (x : ArbWait), x ∈ s.ab.waits → x.arb ≠ a)) ∧
    (∃ (s : State) (k : BitVec 4) (p : BitVec 3) (c : BitVec 1), s.Calm ∧
        s.live = true ∧
        p.toNat < 5 ∧
        (s.porter k.toNat p.toNat).switched = some c ∧
        s.askedFor { cluster := k, porter := p, ctx := c } = false ∧
        (s.run { cluster := k, porter := p, ctx := c }).isSome = true) ∧
    (∃ (s : State) (a : BitVec 6) (h : ArbHold), s.mirrorOn = false ∧
        s.live = true ∧
        a.toNat < 40 ∧
        tget none s.ab.holds a.toNat = some h ∧
        s.ab.holdMax ≠ 0 ∧
        Nat.max 16 s.ab.holdMax.toNat < s.age h.since ∧
        s.ab.logValid = false) ∧
    (∃ (s : State) (w : ArbWait), s.mirrorOn = false ∧
        s.live = true ∧
        w.arb.toNat < 40 ∧
        w.slot.toNat < 24 ∧
        s.ab.waits = [w] ∧
        w.reported = false ∧
        s.ab.starveNs ≠ 0 ∧
        s.ab.starveNs.toNat < s.age w.since ∧
        s.ab.logValid = false) ∧
    (∃ (v : Word) (s : State) (h : HpAttr), s.Calm ∧
        s.LetIn h ∧
        s.ab.waits = []) :=
  ⟨⟨live, 0, [⟨3, none, 1⟩], ⟨3, none, 1⟩, canonical_of (by decide +kernel), calm_of (by decide +kernel), by decide +kernel⟩,
    ⟨w154, ⟨0, 3, none, 2, 0x123000000, false, 4⟩, canonical_of (by decide +kernel), calm_of (by decide +kernel), by decide +kernel⟩,
    ⟨0, live, by decide +kernel, calm_of (by decide +kernel), by decide +kernel⟩,
    ⟨w155, 3, 1, 1, calm_of (by decide +kernel), by decide +kernel⟩,
    ⟨w156, 0, ⟨7, none, 2, 0x123400000⟩, by decide +kernel⟩,
    ⟨w154, ⟨0, 3, none, 2, 0x123000000, false, 4⟩, by decide +kernel⟩,
    ⟨0, live, ⟨1, 0, true, true, 0⟩, calm_of (by decide +kernel), letIn_of (by decide +kernel), by decide +kernel⟩⟩

/-- States and operands that meet the hypotheses of PorterFailuresAndPace, clause by clause. -/
theorem test_meets_PorterFailuresAndPace :
    (∃ (s : State) (k : BitVec 4) (p : BitVec 3) (q : Nat) (c : Instr), s.Canonical ∧
        s.mirrorOn = false ∧
        s.NoneWaits ∧
        s.live = true ∧
        p.toNat < 5 ∧
        (c = Instr.porterWatchdogExpiry k p ∨ ∃ kind, c = Instr.porterCheckFail k p kind) ∧
        (s.porter k.toNat p.toNat).state = PorterState.active ∧
        s.run { cluster := k, porter := p, ctx := 0 } = none ∧
        s.run { cluster := k, porter := p, ctx := 1 } = none ∧
        q < 5 ∧
        (s.porter k.toNat q).state = PorterState.spare ∧
        (∀ (i : Nat), i < q → (s.porter k.toNat i).state ≠ PorterState.spare)) ∧
    (∃ (k : BitVec 4) (p : BitVec 3) (s : State), p.toNat < 5 ∧
        s.Calm ∧
        s.live = true ∧
        (s.porter k.toNat p.toNat).state ≠ PorterState.active) ∧
    (∃ (k : BitVec 4) (p : BitVec 3) (kind : CheckKind) (s : State), p.toNat < 5 ∧
        s.Calm ∧
        s.live = true ∧
        (s.porter k.toNat p.toNat).state ≠ PorterState.active) ∧
    (∃ (s : State) (n : W12), s.portUp = true ∧
        s.awake = true ∧
        s.gl.tbSeen = true) ∧
    (∃ (s : State) (h : HpAttr), s.Calm ∧
        s.LetIn h ∧
        True) ∧
    (∃ (s : State) (h : HpAttr), s.Canonical ∧
        s.Calm ∧
        s.LetIn h ∧
        s.busy 5 = false ∧
        s.busy 6 = false) :=
  ⟨⟨live, 2, 1, 4, .porterCheckFail 2 1 .residue, canonical_of (by decide +kernel), by decide +kernel, noneWaits_of (by decide +kernel), by decide +kernel, by decide +kernel, .inr ⟨_, rfl⟩, by decide +kernel⟩,
    ⟨2, 0, w157, by decide +kernel, calm_of (by decide +kernel), by decide +kernel⟩,
    ⟨2, 0, .decode, w157, by decide +kernel, calm_of (by decide +kernel), by decide +kernel⟩,
    ⟨live, 5, by decide +kernel⟩,
    ⟨live, ⟨1, 0, true, true, 0⟩, calm_of (by decide +kernel), letIn_of (by decide +kernel), trivial⟩,
    ⟨live, ⟨1, 0, true, true, 0⟩, canonical_of (by decide +kernel), calm_of (by decide +kernel), letIn_of (by decide +kernel), by decide +kernel⟩⟩

/-- States and operands that meet the hypotheses of ItineraryStore, clause by clause. -/
theorem test_meets_ItineraryStore :
    (∃ (i : W12) (v : Word) (s : State) (h : HpAttr), s.Calm ∧
        s.LetIn h ∧
        s.st.sealed = false ∧
        s.st.sealing = false ∧
        s.st.own = [] ∧
        (∀ (j : Nat), j < 16 → s.noCopy j = false)) ∧
    (∃ (s : State) (h : HpAttr) (i : W12) (v : Word), s.Canonical ∧
        s.Calm ∧
        s.LetIn h ∧
        s.st.sealed = false ∧
        s.st.sealing = false) ∧
    (∃ (i : W12) (v : Word) (s : State) (h : HpAttr), s.Calm ∧
        s.LetIn h ∧
        (s.st.sealed = true ∨ s.st.sealing = true)) ∧
    (∃ (s : State), s.Calm ∧
        s.live = true ∧
        s.st.sealing = true ∧
        s.st.bad = [] ∧
        s.st.own = [] ∧
        s.st.reloading = 0 ∧
        s.cu.pairEn = false) ∧
    (∃ (s : State) (k : BitVec 4) (i : W12) (j : Nat), s.mirrorOn = false ∧
        s.live = true ∧
        bit s.st.storeOk k.toNat = true ∧
        s.noCopy k.toNat = false ∧
        bit s.st.reloading k.toNat = false ∧
        s.copyBad k.toNat (BitVec.toNat i) = true ∧
        s.reloadSource k.toNat (BitVec.toNat i) = some j) ∧
    (∃ (s : State) (k : BitVec 4) (i : W12), s.mirrorOn = false ∧
        s.live = true ∧
        bit s.st.storeOk k.toNat = true ∧
        s.noCopy k.toNat = false ∧
        s.st.lost = false ∧
        s.er.valid = false ∧
        bit s.st.reloading k.toNat = false ∧
        s.copyBad k.toNat (BitVec.toNat i) = false ∧
        (∀ (j : Nat), j < 16 → j ≠ k.toNat → s.copyBad j (BitVec.toNat i) = true)) ∧
    (∃ (k : BitVec 4) (s : State), s.Calm ∧
        s.live = true ∧
        bit s.st.reloading k.toNat = true ∧
        s.sourceOf k.toNat ≠ k.toNat ∧
        s.st.own = [] ∧
        s.pa.runs = [] ∧
        (∀ (n : Nat), n < 16 → n ≠ k.toNat → bit s.st.reloading n = false)) :=
  ⟨⟨5, 0, w104, ⟨1, 0, true, true, 0⟩, calm_of (by decide +kernel), letIn_of (by decide +kernel), by decide +kernel⟩,
    ⟨w104, ⟨1, 0, true, true, 0⟩, 5, 0, canonical_of (by decide +kernel), calm_of (by decide +kernel), letIn_of (by decide +kernel), by decide +kernel⟩,
    ⟨5, 0, live, ⟨1, 0, true, true, 0⟩, calm_of (by decide +kernel), letIn_of (by decide +kernel), by decide +kernel⟩,
    ⟨w158, calm_of (by decide +kernel), by decide +kernel⟩,
    ⟨w159, 2, 9, 3, by decide +kernel⟩,
    ⟨w160, 3, 9, by decide +kernel⟩,
    ⟨3, w161, calm_of (by decide +kernel), by decide +kernel⟩⟩

/-- States and operands that meet the hypotheses of FunctionsAreMade, clause by clause. -/
theorem test_meets_FunctionsAreMade :
    (∃ (s : State) (h : HpAttr) (fn : BitVec 10) (a : Nat) (b : Nat) (c : Nat) (d : Nat), s.Canonical ∧
        s.Calm ∧
        s.LetIn h ∧
        s.fm.busy = false ∧
        s.st.sealed = true ∧
        s.cu.pairEn = false ∧
        fn ≠ 0 ∧
        fn.toNat ≤ 512 ∧
        (s.fn fn.toNat).state = FnState.absent ∧
        s.badArgs true fn.toNat = false ∧
        s.placeRanges = Except.ok [a, b, c, d] ∧
        s.otherShares fn.toNat + s.argShare ≤ 112 ∧
        s.lg.locks = [] ∧
        a < 507 ∧
        b < 256 ∧
        c < 1024 ∧
        d < 2048 ∧
        (∀ (e : Nat), 1088 + 256 * a ≤ e → e < 1088 + 256 * a + 256 * (BitVec.extractLsb' 0 9 s.fm.arg0).toNat → s.Unplaced e)) ∧
    (∃ (s : State) (h : HpAttr) (fn : BitVec 10), s.Calm ∧
        s.LetIn h ∧
        s.fm.busy = false ∧
        s.st.sealed = true ∧
        s.cu.pairEn = false ∧
        fn ≠ 0 ∧
        fn.toNat ≤ 512 ∧
        (s.fn fn.toNat).state = FnState.inService ∧
        s.badArgs false fn.toNat = false ∧
        s.otherShares fn.toNat + s.argShare ≤ 112) ∧
    (∃ (fn : BitVec 10) (c : HpAttr → Instr) (s : State) (h : HpAttr), c ∈ [fun x => Instr.create x fn, fun x => Instr.modify x fn, fun x => Instr.destroy x fn, fun x => Instr.flr x fn, fun x => Instr.freeze x fn, fun x => Instr.thaw x fn, fun x => Instr.save x fn, fun x => Instr.restore x fn, fun x => Instr.abort x fn] ∧
        s.Calm ∧
        s.LetIn h ∧
        s.fm.busy = true) :=
  ⟨⟨w162, ⟨1, 0, true, true, 0⟩, 1, 0, 0, 0, 0, canonical_of (by decide +kernel), calm_of (by decide +kernel), letIn_of (by decide +kernel), by decide +kernel, by decide +kernel, by decide +kernel, by decide +kernel, by decide +kernel, by decide +kernel, by decide +kernel, rfl, by decide +kernel, by decide +kernel, by decide +kernel, by decide +kernel, by decide +kernel, by decide +kernel, fun e _ _ => ⟨rfl, rfl, rfl, rfl, rfl⟩⟩,
    ⟨w163, ⟨1, 0, true, true, 0⟩, 1, calm_of (by decide +kernel), letIn_of (by decide +kernel), by decide +kernel⟩,
    ⟨1, (fun x => .create x 1), w164, ⟨1, 0, true, true, 0⟩, by simp, calm_of (by decide +kernel), letIn_of (by decide +kernel), by decide +kernel⟩⟩

/-- States and operands that meet the hypotheses of FunctionsStopAndEnd, clause by clause. -/
theorem test_meets_FunctionsStopAndEnd :
    (∃ (s : State) (h : HpAttr) (fn : BitVec 10), s.Calm ∧
        s.LetIn h ∧
        s.fm.busy = false ∧
        s.st.sealed = true ∧
        s.cu.pairEn = false ∧
        fn ≠ 0 ∧
        fn.toNat ≤ 512 ∧
        (s.fn fn.toNat).state = FnState.inService ∧
        s.Canonical ∧
        s.quietNow fn.toNat = false) ∧
    (∃ (s : State) (h : HpAttr) (fn : BitVec 10), s.mirrorOn = false ∧
        s.blocked = [] ∧
        s.LetIn h ∧
        s.fm.busy = false ∧
        s.st.sealed = true ∧
        s.cu.pairEn = false ∧
        s.fm.mig = none ∧
        fn ≠ 0 ∧
        fn.toNat ≤ 512 ∧
        (s.fn fn.toNat).state = FnState.frozen ∧
        (s.fn fn.toNat).restored = false) ∧
    (∃ (s : State) (fn : BitVec 10) (d : Drain), s.Canonical ∧
        s.Calm ∧
        s.live = true ∧
        s.gb.enable = false ∧
        fn.toNat ≤ 512 ∧
        (∀ (e : Nat), 1088 + 256 * (s.fn fn.toNat).lodgBase.toNat ≤ e → e < 1088 + 256 * (s.fn fn.toNat).lodgBase.toNat + 256 * (s.fn fn.toNat).lodgN.toNat → s.Unplaced e) ∧
        s.drained fn.toNat false = some d ∧
        d.back = FnState.inService ∧
        s.Unplaced srcFlrDone ∧
        (s.entry srcFlrDone).state = EvState.idle ∧
        (s.entry srcFlrDone).direct = false) ∧
    (∃ (s : State) (fn : BitVec 10) (d : Drain), s.Canonical ∧
        s.Calm ∧
        s.live = true ∧
        s.gb.enable = false ∧
        fn.toNat ≤ 512 ∧
        (∀ (e : Nat), 1088 + 256 * (s.fn fn.toNat).lodgBase.toNat ≤ e → e < 1088 + 256 * (s.fn fn.toNat).lodgBase.toNat + 256 * (s.fn fn.toNat).lodgN.toNat → s.Unplaced e) ∧
        s.drained fn.toNat true = some d) :=
  ⟨⟨w165, ⟨1, 0, true, true, 0⟩, 1, calm_of (by decide +kernel), letIn_of (by decide +kernel), by decide +kernel, by decide +kernel, by decide +kernel, by decide +kernel, by decide +kernel, by decide +kernel, canonical_of (by decide +kernel), by decide +kernel⟩,
    ⟨w166, ⟨1, 0, true, true, 0⟩, 1, by decide +kernel, by decide +kernel, letIn_of (by decide +kernel), by decide +kernel⟩,
    ⟨w167, 1, ⟨1, false, .inService, 0⟩, canonical_of (by decide +kernel), calm_of (by decide +kernel), by decide +kernel, by decide +kernel, by decide +kernel, fun e _ _ => ⟨rfl, rfl, rfl, rfl, rfl⟩, by decide +kernel, by decide +kernel, unplaced_of (by decide +kernel), by decide +kernel⟩,
    ⟨w168, 1, ⟨1, true, .inService, 0⟩, canonical_of (by decide +kernel), calm_of (by decide +kernel), by decide +kernel, by decide +kernel, by decide +kernel, fun e _ _ => ⟨rfl, rfl, rfl, rfl, rfl⟩, by decide +kernel⟩⟩

/-- States and operands that meet the hypotheses of SaveRestoreAndAbort, clause by clause. -/
theorem test_meets_SaveRestoreAndAbort :
    (∃ (s : State) (h : HpAttr) (fn : BitVec 10), s.mirrorOn = false ∧
        s.blocked = [] ∧
        s.LetIn h ∧
        s.fm.busy = false ∧
        s.st.sealed = true ∧
        s.cu.pairEn = false ∧
        fn ≠ 0 ∧
        fn.toNat ≤ 512 ∧
        s.fm.mig = none ∧
        (s.fn fn.toNat).state = FnState.frozen ∧
        s.quiet fn.toNat = true ∧
        s.basosFits fn.toNat = true) ∧
    (∃ (s : State) (h : HpAttr) (fn : BitVec 10), s.mirrorOn = false ∧
        s.blocked = [] ∧
        s.LetIn h ∧
        s.fm.busy = false ∧
        s.st.sealed = true ∧
        s.cu.pairEn = false ∧
        fn ≠ 0 ∧
        fn.toNat ≤ 512 ∧
        s.fm.mig = none ∧
        (s.fn fn.toNat).state = FnState.frozen ∧
        (∀ (e : Nat), 1088 + 256 * (s.fn fn.toNat).lodgBase.toNat ≤ e → (s.entry e).state = EvState.idle) ∧
        (∀ (c : Nat), (s.ctx c).state = CtxState.free) ∧
        s.Canonical) ∧
    (∃ (s : State) (h : HpAttr) (fn : BitVec 10) (m : Migration) (len : BitVec 19), s.mirrorOn = false ∧
        s.blocked = [] ∧
        s.LetIn h ∧
        s.fm.busy = false ∧
        s.st.sealed = true ∧
        s.cu.pairEn = false ∧
        fn ≠ 0 ∧
        fn.toNat ≤ 512 ∧
        s.fm.mig = some m ∧
        m.fn = fn ∧
        m.saving = true ∧
        (s.fn fn.toNat).state = FnState.saving ∧
        s.fm.segReady = true ∧
        s.fm.last = false) ∧
    (∃ (s : State) (h : HpAttr) (fn : BitVec 10) (m : Migration) (len : BitVec 19), s.mirrorOn = false ∧
        s.blocked = [] ∧
        s.LetIn h ∧
        s.fm.busy = false ∧
        s.st.sealed = true ∧
        s.cu.pairEn = false ∧
        fn ≠ 0 ∧
        fn.toNat ≤ 512 ∧
        s.fm.mig = some m ∧
        m.fn = fn ∧
        m.saving = true ∧
        (s.fn fn.toNat).state = FnState.saving ∧
        s.fm.segReady = true ∧
        s.fm.last = true ∧
        s.fm.migFn = fn) ∧
    (∃ (s : State) (h : HpAttr) (fn : BitVec 10) (m : Migration), s.mirrorOn = false ∧
        s.blocked = [] ∧
        s.LetIn h ∧
        s.fm.busy = false ∧
        s.st.sealed = true ∧
        s.cu.pairEn = false ∧
        fn ≠ 0 ∧
        fn.toNat ≤ 512 ∧
        s.fm.mig = some m ∧
        m.fn = fn ∧
        ((s.fn fn.toNat).state = FnState.saving ∨ (s.fn fn.toNat).state = FnState.restoring)) ∧
    (∃ (s : State) (m : Migration), s.mirrorOn = false ∧
        s.live = true ∧
        s.fm.mig = some m ∧
        m.saving = true ∧
        s.fm.segReady = false) ∧
    (∃ (s : State) (m : Migration) (n : Nat), s.mirrorOn = false ∧
        s.live = true ∧
        s.stillFns = [] ∧
        s.gb.gapDue = none ∧
        s.fm.mig = some m ∧
        m.saving = false ∧
        m.install = some n ∧
        s.headFault m.fn.toNat m.image = none ∧
        (readImage m.image).bad = false ∧
        m.image.length < sliceNat m.image 30 4 ∧
        (∀ (b : BasosItem), b ∈ (readImage m.image).items → b.upto ≤ m.done)) ∧
    (∃ (s : State) (m : Migration) (n : Nat) (l : List BasosItem) (b : BasosItem), s.mirrorOn = false ∧
        s.live = true ∧
        s.stillFns = [] ∧
        s.gb.gapDue = none ∧
        s.fm.mig = some m ∧
        m.saving = false ∧
        m.install = some n ∧
        s.headFault m.fn.toNat m.image = none ∧
        (readImage m.image).bad = false ∧
        m.image.length < sliceNat m.image 30 4 ∧
        (readImage m.image).items = l ++ [b] ∧
        (∀ (k : BasosItem), k ∈ l → k.upto ≤ m.done) ∧
        m.done < b.upto ∧
        b.ty = 5 ∧
        b.idx < 8 * sliceNat m.image 24 2) ∧
    (∃ (s : State) (h : HpAttr) (off : BitVec 18) (v : Word) (m : Migration), s.mirrorOn = false ∧
        s.LetIn h ∧
        s.stillFns = [] ∧
        s.gb.gapDue = none ∧
        s.fm.mig = some m ∧
        m.saving = false ∧
        off.toNat % 8 = 0) ∧
    (∃ (off : BitVec 18) (v : Word) (s : State) (h : HpAttr), off.toNat % 8 = 0 ∧
        s.Calm ∧
        s.LetIn h ∧
        True) :=
  ⟨⟨w166, ⟨1, 0, true, true, 0⟩, 1, by decide +kernel, by decide +kernel, letIn_of (by decide +kernel), by decide +kernel⟩,
    ⟨w166, ⟨1, 0, true, true, 0⟩, 1, by decide +kernel, by decide +kernel, letIn_of (by decide +kernel), by decide +kernel, by decide +kernel, by decide +kernel, by decide +kernel, by decide +kernel, by decide +kernel, by decide +kernel, fun _ _ => rfl, fun _ => rfl, canonical_of (by decide +kernel)⟩,
    ⟨w169, ⟨1, 0, true, true, 0⟩, 1, ⟨true, 1, 0x1F4, imageHead, 0, none⟩, 0, by decide +kernel, by decide +kernel, letIn_of (by decide +kernel), by decide +kernel⟩,
    ⟨w170, ⟨1, 0, true, true, 0⟩, 1, ⟨true, 1, 0x1F4, imageHead, 64, none⟩, 0, by decide +kernel, by decide +kernel, letIn_of (by decide +kernel), by decide +kernel⟩,
    ⟨w171, ⟨1, 0, true, true, 0⟩, 1, ⟨true, 1, 0x1F4, imageHead, 0, none⟩, by decide +kernel, by decide +kernel, letIn_of (by decide +kernel), by decide +kernel⟩,
    ⟨w172, ⟨true, 1, 0x1F4, imageHead, 0, none⟩, by decide +kernel⟩,
    ⟨w173, ⟨false, 1, 0, imageVec, 88, some 100⟩, 100, by decide +kernel⟩,
    ⟨w174, ⟨false, 1, 0, imageVec, 64, some 100⟩, 100, [], ⟨5, 0, [0x38, 0x12, 0, 0, 0, 0, 0, 0, 9, 0, 0, 0, 1, 0, 0, 0], 88⟩, by decide +kernel⟩,
    ⟨w175, ⟨1, 0, true, true, 0⟩, 0, 0, ⟨false, 1, 0, imageHead, 64, some 100⟩, by decide +kernel, letIn_of (by decide +kernel), by decide +kernel⟩,
    ⟨0, 0, live, ⟨1, 0, true, true, 0⟩, by decide +kernel, calm_of (by decide +kernel), letIn_of (by decide +kernel), trivial⟩⟩

/-- States and operands that meet the hypotheses of FunctionPages, clause by clause. -/
theorem test_meets_FunctionPages :
    (∃ (s : State) (h : HpAttr) (fn : BitVec 10) (v : Word), s.Calm ∧
        s.LetIn h ∧
        s.InService fn ∧
        (s.fn fn.toNat).vectors = [] ∧
        s.Canonical) ∧
    (∃ (s : State) (h : HpAttr) (fn : BitVec 10) (v : Word) (n : Nat) (u : Machine.Vector), s.Calm ∧
        s.LetIn h ∧
        s.InService fn ∧
        (s.fn fn.toNat).vectors = [(n, u)] ∧
        u.pending = true ∧
        u.ctl.getLsbD 0 = false ∧
        BitVec.getLsbD v 0 = true ∧
        BitVec.getLsbD v 1 = false ∧
        s.ep.spill = [] ∧
        s.ep.queue.length < 256) ∧
    (∃ (s : State) (h : HpAttr) (fn : BitVec 10) (n : BitVec 11) (v : Word), s.Calm ∧
        s.LetIn h ∧
        s.InService fn ∧
        n.toNat < 8 * (s.fn fn.toNat).vecN.toNat ∧
        (s.fn fn.toNat).enable = false ∧
        s.Canonical) ∧
    (∃ (s : State) (h : HpAttr) (fn : BitVec 10) (n : BitVec 11) (v : Word) (high : Bool), s.Calm ∧
        s.LetIn h ∧
        s.InService fn ∧
        8 * (s.fn fn.toNat).vecN.toNat ≤ n.toNat) ∧
    (∃ (s : State) (h : HpAttr) (fn : BitVec 10) (q : BitVec 9) (v : Word), s.Calm ∧
        s.LetIn h ∧
        s.InService fn ∧
        q.toNat < 8 * (s.fn fn.toNat).nqN.toNat ∧
        (((s.fn fn.toNat).nq q.toNat).prod - BitVec.extractLsb' 0 16 v).toNat ≤ (((s.fn fn.toNat).nq q.toNat).prod - ((s.fn fn.toNat).nq q.toNat).cons).toNat) ∧
    (∃ (s : State) (h : HpAttr) (fn : BitVec 10) (q : BitVec 9) (v : Word), s.Calm ∧
        s.LetIn h ∧
        s.InService fn ∧
        q.toNat < 8 * (s.fn fn.toNat).nqN.toNat ∧
        (((s.fn fn.toNat).nq q.toNat).prod - ((s.fn fn.toNat).nq q.toNat).cons).toNat < (((s.fn fn.toNat).nq q.toNat).prod - BitVec.extractLsb' 0 16 v).toNat) ∧
    (∃ (s : State) (h : HpAttr) (fn : BitVec 10) (q : BitVec 9) (v : Word), s.Calm ∧
        s.LetIn h ∧
        s.InService fn ∧
        q.toNat < 8 * (s.fn fn.toNat).nqN.toNat ∧
        ((s.fn fn.toNat).nq q.toNat).enable = true ∧
        v &&& ~~~63 ≠ ((s.fn fn.toNat).nq q.toNat).base) ∧
    (∃ (s : State) (h : HpAttr) (fn : BitVec 10) (q : BitVec 9) (v : Word), s.Calm ∧
        s.LetIn h ∧
        s.InService fn ∧
        q.toNat < 8 * (s.fn fn.toNat).nqN.toNat ∧
        ((s.fn fn.toNat).nq q.toNat).enable = false ∧
        BitVec.getLsbD v 0 = true ∧
        4 ≤ (BitVec.extractLsb' 1 4 v).toNat) ∧
    (∃ (s : State) (h : HpAttr) (fn : BitVec 10) (q : BitVec 9) (v : Word), s.Calm ∧
        s.LetIn h ∧
        s.InService fn ∧
        q.toNat < 8 * (s.fn fn.toNat).nqN.toNat ∧
        ((s.fn fn.toNat).nq q.toNat).enable = true ∧
        BitVec.extractLsb' 1 4 v ≠ ((s.fn fn.toNat).nq q.toNat).logsize ∧
        4 ≤ (BitVec.extractLsb' 1 4 v).toNat) :=
  ⟨⟨live, ⟨1, 0, true, true, 0⟩, 0, 1, calm_of (by decide +kernel), letIn_of (by decide +kernel), ⟨by decide +kernel, by decide +kernel⟩, by decide +kernel, canonical_of (by decide +kernel)⟩,
    ⟨w176, ⟨1, 0, true, true, 0⟩, 1, 1, 2, { addr := 0x1007, data := 9, ctl := 0, pending := true }, calm_of (by decide +kernel), letIn_of (by decide +kernel), ⟨by decide +kernel, by decide +kernel⟩, by decide +kernel⟩,
    ⟨live, ⟨1, 0, true, true, 0⟩, 1, 2, 1, calm_of (by decide +kernel), letIn_of (by decide +kernel), ⟨by decide +kernel, by decide +kernel⟩, by decide +kernel, by decide +kernel, canonical_of (by decide +kernel)⟩,
    ⟨live, ⟨1, 0, true, true, 0⟩, 0, 2, 1, false, calm_of (by decide +kernel), letIn_of (by decide +kernel), ⟨by decide +kernel, by decide +kernel⟩, by decide +kernel⟩,
    ⟨w177, ⟨1, 0, true, true, 0⟩, 1, 0, 1, calm_of (by decide +kernel), letIn_of (by decide +kernel), ⟨by decide +kernel, by decide +kernel⟩, by decide +kernel⟩,
    ⟨live, ⟨1, 0, true, true, 0⟩, 1, 0, 1, calm_of (by decide +kernel), letIn_of (by decide +kernel), ⟨by decide +kernel, by decide +kernel⟩, by decide +kernel⟩,
    ⟨w177, ⟨1, 0, true, true, 0⟩, 1, 1, 1, calm_of (by decide +kernel), letIn_of (by decide +kernel), ⟨by decide +kernel, by decide +kernel⟩, by decide +kernel⟩,
    ⟨live, ⟨1, 0, true, true, 0⟩, 1, 0, 0x12345678FFFFFFFF, calm_of (by decide +kernel), letIn_of (by decide +kernel), ⟨by decide +kernel, by decide +kernel⟩, by decide +kernel⟩,
    ⟨w177, ⟨1, 0, true, true, 0⟩, 1, 1, 0x12345678FFFFFFFF, calm_of (by decide +kernel), letIn_of (by decide +kernel), ⟨by decide +kernel, by decide +kernel⟩, by decide +kernel⟩⟩

/-- States and operands that meet the hypotheses of EgressWrites, clause by clause. -/
theorem test_meets_EgressWrites :
    (∃ (id : BitVec 5) (w : EgWrite) (s : State), s.Calm ∧
        s.portUp = true ∧
        s.ep.queue.head? = some w ∧
        w.group = none ∧
        s.ep.outstanding.length < 32 ∧
        (∀ (o : BitVec 5 × EgWrite), o ∈ s.ep.outstanding → o.fst ≠ id) ∧
        s.pa.runs = [] ∧
        s.powered 20 = true) ∧
    (∃ (s : State) (w : EgWrite), w.msix = false) ∧
    (∃ (s : State) (w : EgWrite), w.msix = true ∧
        BitVec.getLsbD (s.issued w).addr 2 = false) ∧
    (∃ (id : BitVec 5) (s : State), s.Calm ∧
        s.portUp = true ∧
        s.powered 20 = false) ∧
    (∃ (id : BitVec 5) (code : BitVec 2) (s : State), s.Calm ∧
        s.portUp = true ∧
        s.powered 20 = false) ∧
    (∃ (id : BitVec 5) (code : BitVec 2) (w : EgWrite) (s : State), code ≠ 0 ∧
        s.Calm ∧
        s.portUp = true ∧
        s.powered 20 = true ∧
        List.find? (fun o => decide (o.fst = id)) s.ep.outstanding = some (id, w) ∧
        s.ep.logValid = false) ∧
    (∃ (id : BitVec 5) (code : BitVec 2) (w : EgWrite) (s : State), code ≠ 0 ∧
        s.Calm ∧
        s.portUp = true ∧
        s.powered 20 = true ∧
        List.find? (fun o => decide (o.fst = id)) s.ep.outstanding = some (id, w) ∧
        s.ep.logValid = true) :=
  ⟨⟨3, ⟨false, 1, 0x40, 0x123, 0, none, none⟩, w178, calm_of (by decide +kernel), by decide +kernel⟩,
    ⟨live, ⟨false, 1, 0x40, 0x123, 0, none, none⟩, by decide +kernel⟩,
    ⟨live, ⟨true, 1, 0, 0, 2, none, none⟩, by decide +kernel⟩,
    ⟨3, w179, calm_of (by decide +kernel), by decide +kernel⟩,
    ⟨3, 0, w179, calm_of (by decide +kernel), by decide +kernel⟩,
    ⟨3, 1, ⟨false, 1, 0x40, 0x123, 0, none, none⟩, w180, by decide +kernel, calm_of (by decide +kernel), by decide +kernel⟩,
    ⟨3, 1, ⟨false, 1, 0x40, 0x123, 0, none, none⟩, w181, by decide +kernel, calm_of (by decide +kernel), by decide +kernel⟩⟩

/-- States and operands that meet the hypotheses of TollgateJudgementAndGate, clause by clause, part 1. -/
theorem test_meets_TollgateJudgementAndGate :
    (∃ (s : State) (q : HpReq), 100728832 ≤ q.addr.toNat) ∧
    (∃ (s : State) (q : HpReq), 65536 ≤ q.addr.toNat ∧
        q.addr.toNat < 131072) ∧
    (∃ (s : State) (q : HpReq), q.addr.toNat < 100728832 ∧
        (q.addr.toNat < 65536 ∨ 131072 ≤ q.addr.toNat) ∧
        s.tg.gate ≠ Gate.opened) ∧
    (∃ (s : State) (q : HpReq), s.tg.gate = Gate.opened ∧
        67108864 ≤ q.addr.toNat ∧
        q.addr.toNat < 100728832) ∧
    (∃ (s : State) (q : HpReq), s.tg.gate = Gate.opened ∧
        q.addr.toNat < 67108864 ∧
        (q.addr.toNat < 65536 ∨ 131072 ≤ q.addr.toNat) ∧
        (∀ (p : Nat × Region), p ∈ s.tg.regions → p.snd.covers q.addr.toNat = false)) ∧
    (∃ (s : State) (q : HpReq) (l : Tbl Region) (l' : Tbl Region) (n : Nat) (r : Region), s.tg.gate = Gate.opened ∧
        q.addr.toNat < 67108864 ∧
        (q.addr.toNat < 65536 ∨ 131072 ≤ q.addr.toNat) ∧
        s.tg.regions = l ++ (n, r) :: l' ∧
        (∀ (p : Nat × Region), p ∈ l → p.snd.covers q.addr.toNat = false) ∧
        r.covers q.addr.toNat = true) ∧
    (∃ (s : State) (h : HpAttr), s.Calm ∧
        s.LetIn h ∧
        keeper h = true ∧
        s.tg.gate = Gate.opened) ∧
    (∃ (s : State) (h : HpAttr), s.Calm ∧
        s.LetIn h ∧
        keeper h = true ∧
        s.tg.gate ≠ Gate.opened) :=
  ⟨⟨live, ⟨⟨1, 0, true, true, 0⟩, 0x6010000, 8, false, [], []⟩, by decide +kernel⟩,
    ⟨live, ⟨⟨2, 1, false, false, 7⟩, 0x10000, 8, true, [5], [0xFF]⟩, by decide +kernel⟩,
    ⟨w102, ⟨⟨1, 0, true, true, 0⟩, 0x40, 8, false, [], []⟩, by decide +kernel⟩,
    ⟨live, ⟨⟨2, 1, false, false, 7⟩, 0x4010000, 8, false, [], []⟩, by decide +kernel⟩,
    ⟨live, ⟨⟨1, 0, true, true, 0⟩, 0x40, 8, false, [], []⟩, by decide +kernel⟩,
    ⟨w182, ⟨⟨2, 1, false, false, 7⟩, 0x20048, 8, false, [], []⟩, [], [], 3, { valid := true, read := true, fnAny := true, initAny := true, sizeLog := 0xC, base := 0x800 }, by decide +kernel⟩,
    ⟨live, ⟨1, 0, true, true, 0⟩, calm_of (by decide +kernel), letIn_of (by decide +kernel), by decide +kernel⟩,
    ⟨w102, ⟨1, 0, true, true, 0⟩, calm_of (by decide +kernel), letIn_of (by decide +kernel), by decide +kernel⟩⟩

/-- States and operands that meet the hypotheses of TollgateJudgementAndGate, clause by clause, part 2. -/
theorem test_meets_TollgateJudgementAndGate_more :
    (∃ (s : State) (h : HpAttr), s.Calm ∧
        s.LetIn h ∧
        keeper h = true ∧
        s.tg.gate ∈ [Gate.closed, Gate.fault] ∧
        s.tg.check = none) ∧
    (∃ (s : State) (h : HpAttr), s.Calm ∧
        s.LetIn h ∧
        keeper h = true ∧
        (¬s.tg.gate ∈ [Gate.closed, Gate.fault] ∨ s.tg.check ≠ none)) ∧
    (∃ (l : Tbl Region) (s : State), s.Calm ∧
        s.live = true ∧
        s.tg.check = some l ∧
        tableFault l = none ∧
        s.hp.stalled = []) ∧
    (∃ (s : State) (l : Tbl Region) (n : Nat) (c : Nat) (o : Nat), s.mirrorOn = false ∧
        s.live = true ∧
        s.tg.check = some l ∧
        tableFault l = some (n, c, o)) ∧
    (∃ (n : BitVec 7) (v : Word) (s : State) (h : HpAttr), s.Calm ∧
        s.LetIn h ∧
        keeper h = true ∧
        s.tg.gate ∈ [Gate.closed, Gate.fault] ∧
        s.tg.check = none) ∧
    (∃ (s : State) (h : HpAttr) (n : BitVec 7) (v : Word), s.Calm ∧
        s.LetIn h ∧
        keeper h = true ∧
        (s.tg.gate ∈ [Gate.opened, Gate.closing] ∨ s.tg.check ≠ none)) ∧
    (∃ (v : Word) (s : State) (h : HpAttr), s.Calm ∧
        s.LetIn h ∧
        keeper h = true ∧
        True) ∧
    (∃ (s : State) (h : HpAttr) (n : BitVec 7) (v : Word) (c : Instr), s.Calm ∧
        s.LetIn h ∧
        keeper h = false ∧
        c ∈ [Instr.close h, Instr.reopen h, Instr.tollRegionWrite h n v, Instr.registerWrite h 65552 v] ∧
        s.tg.imprecise = false ∧
        s.tg.log.valid = true) :=
  ⟨⟨w102, ⟨1, 0, true, true, 0⟩, calm_of (by decide +kernel), letIn_of (by decide +kernel), by decide +kernel⟩,
    ⟨live, ⟨1, 0, true, true, 0⟩, calm_of (by decide +kernel), letIn_of (by decide +kernel), by decide +kernel⟩,
    ⟨[(3, { valid := true, read := true, fnAny := true, initAny := true, sizeLog := 0xC, base := 0x800 }), (4, { valid := true, read := true, fnAny := true, initAny := true, sizeLog := 0xC, base := 0x880 })], w183, calm_of (by decide +kernel), by decide +kernel⟩,
    ⟨w184, [(3, { valid := true, read := true, fnAny := true, initAny := true, sizeLog := 0xC, base := 0x800 }), (4, { valid := true, read := true, fnAny := true, initAny := true, sizeLog := 0xD, base := 0x800 })], 3, 5, 4, by decide +kernel⟩,
    ⟨3, 1, w102, ⟨1, 0, true, true, 0⟩, calm_of (by decide +kernel), letIn_of (by decide +kernel), by decide +kernel⟩,
    ⟨live, ⟨1, 0, true, true, 0⟩, 3, 1, calm_of (by decide +kernel), letIn_of (by decide +kernel), by decide +kernel⟩,
    ⟨1, live, ⟨1, 0, true, true, 0⟩, calm_of (by decide +kernel), letIn_of (by decide +kernel), by decide +kernel, trivial⟩,
    ⟨w101, ⟨2, 1, false, false, 7⟩, 3, 1, .close ⟨2, 1, false, false, 7⟩, calm_of (by decide +kernel), letIn_of (by decide +kernel), by decide +kernel⟩⟩

set_option maxRecDepth 20000 in
/-- States and operands that meet the hypotheses of LinkFlits, clause by clause, part 1. -/
theorem test_meets_LinkFlits :
    (∃ (n : BitVec 2) (s : State), s.Calm ∧
        s.portUp = true ∧
        s.Canonical ∧
        (s.port n.toNat).state = PortState.active ∧
        s.domainOff (portDomain n.toNat) = false ∧
        (∃ i f, (s.port n.toNat).replayAt = some i ∧ (s.port n.toNat).buffer[i]? = some f)) ∧
    (∃ (n : BitVec 2) (s : State), s.Calm ∧
        s.portUp = true ∧
        s.Canonical ∧
        (s.port n.toNat).state = PortState.active ∧
        s.domainOff (portDomain n.toNat) = false ∧
        (s.port n.toNat).replayAt = none ∧
        s.cu.peers = [] ∧
        (s.port n.toNat).linkQ = [] ∧
        (s.port n.toNat).rspQ = [] ∧
        (s.port n.toNat).reqQ ≠ [] ∧
        (s.port n.toNat).buffer.length < 508) ∧
    (∃ (n : BitVec 2) (s : State), s.Calm ∧
        s.portUp = true ∧
        s.Canonical ∧
        (s.port n.toNat).state = PortState.active ∧
        s.domainOff (portDomain n.toNat) = false ∧
        (s.port n.toNat).replayAt = none ∧
        s.cu.peers = [] ∧
        (s.port n.toNat).linkQ = [] ∧
        (s.port n.toNat).rspQ = [] ∧
        (s.port n.toNat).reqQ = [] ∧
        (s.port n.toNat).parkOwed = none ∧
        (s.port n.toNat).parkAsked = false) ∧
    (∃ (n : BitVec 2) (s : State), s.Calm ∧
        s.portUp = true ∧
        s.Canonical ∧
        (s.port n.toNat).trains = true ∧
        s.domainOff (portDomain n.toNat) = false) :=
  ⟨⟨0, w185, calm_of (by decide +kernel), by decide +kernel, canonical_of (by decide +kernel), by decide +kernel, by decide +kernel, ⟨0, ⟨7, .data false [1, 2]⟩, by decide +kernel, by decide +kernel⟩⟩,
    ⟨0, w186, calm_of (by decide +kernel), by decide +kernel, canonical_of (by decide +kernel), by decide +kernel⟩,
    ⟨0, w187, calm_of (by decide +kernel), by decide +kernel, canonical_of (by decide +kernel), by decide +kernel⟩,
    ⟨3, w188, calm_of (by decide +kernel), by decide +kernel, canonical_of (by decide +kernel), by decide +kernel⟩⟩

set_option maxRecDepth 20000 in
/-- States and operands that meet the hypotheses of LinkFlits, clause by clause, part 2. -/
theorem test_meets_LinkFlits_more :
    (∃ (n : BitVec 2) (s : State), s.Calm ∧
        s.portUp = true ∧
        (s.port n.toNat).state ≠ PortState.active ∧
        (s.port n.toNat).trains = false ∧
        (s.loopb n.toNat).running = false) ∧
    (∃ (n : BitVec 2) (lines : List (List Pam4)) (s : State), (Instr.flitReceive n lines).wf = true ∧
        (∃ l, l ∈ lines ∧ l ≠ []) ∧
        s.Calm ∧
        s.portUp = true ∧
        s.Canonical ∧
        (s.port n.toNat).state = PortState.active ∧
        s.domainOff (portDomain n.toNat) = false ∧
        (s.port n.toNat).blameThr = 0 ∧
        (s.port n.toNat).corrThr = 0 ∧
        (s.port n.toNat).badSlot = false ∧
        (receiveWire ((s.port n.toNat).wireIn lines)).pass = false) ∧
    (∃ (n : BitVec 2) (lines : List (List Pam4)) (s : State), (Instr.flitReceive n lines).wf = true ∧
        (∃ l, l ∈ lines ∧ l ≠ []) ∧
        s.Calm ∧
        s.portUp = true ∧
        s.Canonical ∧
        (s.port n.toNat).state = PortState.active ∧
        s.domainOff (portDomain n.toNat) = false ∧
        (s.port n.toNat).blameThr = 0 ∧
        (s.port n.toNat).corrThr = 0 ∧
        (s.port n.toNat).badSlot = false ∧
        (s.port n.toNat).buffer = [] ∧
        (receiveWire ((s.port n.toNat).wireIn lines)).pass = true ∧
        (flitHead (receiveWire ((s.port n.toNat).wireIn lines)).flit).type = 1 ∧
        (flitHead (receiveWire ((s.port n.toNat).wireIn lines)).flit).slotv = 0 ∧
        (flitHead (receiveWire ((s.port n.toNat).wireIn lines)).flit).seq = (s.port n.toNat).rxExp) ∧
    (∃ (n : BitVec 2) (lines : List (List Pam4)) (s : State), (Instr.flitReceive n lines).wf = true ∧
        (∃ l, l ∈ lines ∧ l ≠ []) ∧
        s.Calm ∧
        s.portUp = true ∧
        s.Canonical ∧
        (s.port n.toNat).state = PortState.active ∧
        s.domainOff (portDomain n.toNat) = false ∧
        (s.port n.toNat).blameThr = 0 ∧
        (s.port n.toNat).corrThr = 0 ∧
        (s.port n.toNat).badSlot = false ∧
        (s.port n.toNat).buffer = [] ∧
        (receiveWire ((s.port n.toNat).wireIn lines)).pass = true ∧
        (flitHead (receiveWire ((s.port n.toNat).wireIn lines)).flit).type = 1 ∧
        (flitHead (receiveWire ((s.port n.toNat).wireIn lines)).flit).slotv = 0 ∧
        (flitHead (receiveWire ((s.port n.toNat).wireIn lines)).flit).seq ≠ (s.port n.toNat).rxExp ∧
        BitVec.toNat ((s.port n.toNat).rxExp - 1 - (flitHead (receiveWire ((s.port n.toNat).wireIn lines)).flit).seq) < 512) ∧
    (∃ (n : BitVec 2) (lines : List (List Pam4)) (s : State), (Instr.flitReceive n lines).wf = true ∧
        (∃ l, l ∈ lines ∧ l ≠ []) ∧
        s.Calm ∧
        s.portUp = true ∧
        s.Canonical ∧
        (s.port n.toNat).state = PortState.active ∧
        s.domainOff (portDomain n.toNat) = false ∧
        (s.port n.toNat).blameThr = 0 ∧
        (s.port n.toNat).corrThr = 0 ∧
        (s.port n.toNat).badSlot = false ∧
        (s.port n.toNat).buffer = [] ∧
        (receiveWire ((s.port n.toNat).wireIn lines)).pass = true ∧
        (flitHead (receiveWire ((s.port n.toNat).wireIn lines)).flit).type = 1 ∧
        (flitHead (receiveWire ((s.port n.toNat).wireIn lines)).flit).slotv = 0 ∧
        (flitHead (receiveWire ((s.port n.toNat).wireIn lines)).flit).seq ≠ (s.port n.toNat).rxExp ∧
        512 ≤ BitVec.toNat ((s.port n.toNat).rxExp - 1 - (flitHead (receiveWire ((s.port n.toNat).wireIn lines)).flit).seq)) :=
  ⟨⟨0, live, calm_of (by decide +kernel), by decide +kernel⟩,
    ⟨0, linesOf lineEnd ⟨1, 5, 4, 0, false, 0, 15, 4⟩ [] (fun k i => (i + k) % 15 = 3), w189, by decide +kernel, by decide +kernel, calm_of (by decide +kernel), by decide +kernel, canonical_of (by decide +kernel), by decide +kernel⟩,
    ⟨0, linesOf lineEnd ⟨1, 5, 4, 0, false, 0, 15, 4⟩ [] (fun _ _ => false), w190, by decide +kernel, by decide +kernel, calm_of (by decide +kernel), by decide +kernel, canonical_of (by decide +kernel), by decide +kernel⟩,
    ⟨0, linesOf lineEnd ⟨1, 3, 4, 0, false, 0, 15, 4⟩ [] (fun _ _ => false), w190, by decide +kernel, by decide +kernel, calm_of (by decide +kernel), by decide +kernel, canonical_of (by decide +kernel), by decide +kernel⟩,
    ⟨0, linesOf lineEnd ⟨1, 9, 4, 0, false, 0, 15, 4⟩ [] (fun _ _ => false), w191, by decide +kernel, by decide +kernel, calm_of (by decide +kernel), by decide +kernel, canonical_of (by decide +kernel), by decide +kernel⟩⟩

set_option maxRecDepth 20000 in
/-- States and operands that meet the hypotheses of LinkFlits, clause by clause, part 3. -/
theorem test_meets_LinkFlits_rest :
    (∃ (n : BitVec 2) (lines : List (List Pam4)) (s : State), (Instr.flitReceive n lines).wf = true ∧
        (∃ l, l ∈ lines ∧ l ≠ []) ∧
        s.Calm ∧
        s.portUp = true ∧
        s.Canonical ∧
        (s.port n.toNat).state = PortState.active ∧
        s.domainOff (portDomain n.toNat) = false ∧
        (s.port n.toNat).blameThr = 0 ∧
        (s.port n.toNat).corrThr = 0 ∧
        (s.port n.toNat).badSlot = false ∧
        (receiveWire ((s.port n.toNat).wireIn lines)).pass = true ∧
        (flitHead (receiveWire ((s.port n.toNat).wireIn lines)).flit).type = 0 ∧
        (flitHead (receiveWire ((s.port n.toNat).wireIn lines)).flit).nak = false ∧
        (s.port n.toNat).replayAt = none ∧
        (flitHead (receiveWire ((s.port n.toNat).wireIn lines)).flit).seq = (s.port n.toNat).rxExp - 1 ∧
        (∃ o l, (s.port n.toNat).buffer = o :: l ∧ BitVec.toNat ((flitHead (receiveWire ((s.port n.toNat).wireIn lines)).flit).ack - o.seq) < (s.port n.toNat).buffer.length)) ∧
    (∃ (n : BitVec 2) (lines : List (List Pam4)) (s : State), (Instr.flitReceive n lines).wf = true ∧
        (∃ l, l ∈ lines ∧ l ≠ []) ∧
        s.Calm ∧
        s.portUp = true ∧
        (s.port n.toNat).state ≠ PortState.active ∧
        (s.loopb n.toNat).respond = false ∧
        (s.loopb n.toNat).running = false) ∧
    (∃ (n : BitVec 2) (s : State), s.Calm ∧
        s.portUp = true ∧
        s.Canonical ∧
        (s.port n.toNat).linked = true ∧
        (s.port n.toNat).buffer ≠ [] ∧
        (s.port n.toNat).tmoRun ≠ 7 ∧
        16 * Nat.max 94 (s.port n.toNat).ackTmo.toNat ≤ s.age (s.port n.toNat).timerAt) ∧
    (∃ (n : BitVec 2) (s : State), s.Canonical ∧
        s.Calm ∧
        s.portUp = true ∧
        s.cu.route = 0 ∧
        (s.port n.toNat).linked = true ∧
        (s.port n.toNat).buffer ≠ [] ∧
        (s.port n.toNat).tmoRun = 7 ∧
        16 * Nat.max 94 (s.port n.toNat).ackTmo.toNat ≤ s.age (s.port n.toNat).timerAt) ∧
    (∃ (n : BitVec 2) (s : State), s.Calm ∧
        s.portUp = true ∧
        s.Canonical ∧
        (s.port n.toNat).state = PortState.active ∧
        1000 * Nat.max 1 (s.port n.toNat).win.toNat ≤ s.age (s.port n.toNat).winAt) :=
  ⟨⟨0, linesOf lineEnd ⟨0, 4, 7, 0, false, 0, 15, 4⟩ [] (fun _ _ => false), w192, by decide +kernel, by decide +kernel, calm_of (by decide +kernel), by decide +kernel, canonical_of (by decide +kernel), by decide +kernel, by decide +kernel, by decide +kernel, by decide +kernel, by decide +kernel, by decide +kernel, by decide +kernel, by decide +kernel, by decide +kernel, by decide +kernel, ⟨⟨7, .data false [1, 2]⟩, [⟨8, .link 0x4030101⟩], by decide +kernel, by decide +kernel⟩⟩,
    ⟨0, linesOf lineEnd ⟨1, 5, 4, 0, false, 0, 15, 4⟩ [] (fun _ _ => false), live, by decide +kernel, by decide +kernel, calm_of (by decide +kernel), by decide +kernel⟩,
    ⟨0, w193, calm_of (by decide +kernel), by decide +kernel, canonical_of (by decide +kernel), by decide +kernel⟩,
    ⟨0, w194, canonical_of (by decide +kernel), calm_of (by decide +kernel), by decide +kernel⟩,
    ⟨0, w187, calm_of (by decide +kernel), by decide +kernel, canonical_of (by decide +kernel), by decide +kernel⟩⟩

/-- States and operands that meet the hypotheses of LinkMessages, clause by clause, part 1. -/
theorem test_meets_LinkMessages :
    (∃ (n : BitVec 2) (m : LinkMsg) (seq : W12) (s : State), s.Calm ∧
        s.portUp = true ∧
        s.Canonical ∧
        (s.port n.toNat).state = PortState.active ∧
        ((s.port n.toNat).proposal = none ∨ ¬s.gl.index < m.index)) ∧
    (∃ (n : BitVec 2) (m : LinkMsg) (seq : W12) (s : State), s.Calm ∧
        s.portUp = true ∧
        s.Canonical ∧
        (s.port n.toNat).state = PortState.active ∧
        (s.port n.toNat).proposal ≠ none ∧
        s.gl.index < m.index) ∧
    (∃ (n : BitVec 2) (m : LinkMsg) (seq : W12) (s : State), s.Calm ∧
        s.portUp = true ∧
        (s.port n.toNat).state ≠ PortState.active) ∧
    (∃ (n : BitVec 2) (m : LinkMsg) (seq : W12) (s : State), s.Calm ∧
        s.portUp = true ∧
        s.Canonical ∧
        (s.port n.toNat).state = PortState.active ∧
        (∃ q, (s.port n.toNat).proposal = some q ∧ q.seq = some seq)) ∧
    (∃ (n : BitVec 2) (m : LinkMsg) (seq : W12) (s : State), s.Calm ∧
        s.portUp = true ∧
        (∀ (q : Proposal), (s.port n.toNat).proposal = some q → q.seq ≠ some seq)) ∧
    (∃ (n : BitVec 2) (m : LinkMsg) (seq : W12) (s : State), s.Calm ∧
        s.portUp = true ∧
        s.Canonical ∧
        (s.port n.toNat).state = PortState.active ∧
        (s.port n.toNat).proposal = none) ∧
    (∃ (n : BitVec 2) (m : LinkMsg) (seq : W12) (s : State), s.Calm ∧
        s.portUp = true ∧
        ((s.port n.toNat).state ≠ PortState.active ∨ (s.port n.toNat).proposal ≠ none)) ∧
    (∃ (n : BitVec 2) (m : LinkMsg) (seq : W12) (s : State), s.Calm ∧
        s.portUp = true ∧
        s.Canonical ∧
        (s.port n.toNat).state = PortState.active ∧
        (s.port n.toNat).parkSeq = some seq ∧
        s.toSend n.toNat = false ∧
        s.wakeSeen n.toNat = false) :=
  ⟨⟨0, ⟨true, 7, 2, 1⟩, 0, w187, calm_of (by decide +kernel), by decide +kernel, canonical_of (by decide +kernel), by decide +kernel⟩,
    ⟨0, ⟨true, 7, 2, 1⟩, 0, w195, calm_of (by decide +kernel), by decide +kernel, canonical_of (by decide +kernel), by decide +kernel⟩,
    ⟨0, ⟨true, 7, 2, 1⟩, 0, live, calm_of (by decide +kernel), by decide +kernel⟩,
    ⟨0, ⟨true, 7, 2, 1⟩, 8, w195, calm_of (by decide +kernel), by decide +kernel, canonical_of (by decide +kernel), by decide +kernel⟩,
    ⟨0, ⟨true, 7, 2, 1⟩, 0, live, calm_of (by decide +kernel), by decide +kernel⟩,
    ⟨0, ⟨true, 7, 2, 1⟩, 0, w187, calm_of (by decide +kernel), by decide +kernel, canonical_of (by decide +kernel), by decide +kernel⟩,
    ⟨0, ⟨true, 7, 2, 1⟩, 0, live, calm_of (by decide +kernel), by decide +kernel⟩,
    ⟨0, ⟨true, 7, 2, 1⟩, 3, w196, calm_of (by decide +kernel), by decide +kernel, canonical_of (by decide +kernel), by decide +kernel⟩⟩

/-- States and operands that meet the hypotheses of LinkMessages, clause by clause, part 2. -/
theorem test_meets_LinkMessages_more :
    (∃ (n : BitVec 2) (m : LinkMsg) (seq : W12) (s : State), s.Calm ∧
        s.portUp = true ∧
        (s.port n.toNat).parkSeq ≠ some seq) ∧
    (∃ (s : State) (n : BitVec 2), s.Canonical ∧
        s.Calm ∧
        s.portUp = true ∧
        s.cu.route = 0 ∧
        (s.port n.toNat).state = PortState.active) ∧
    (∃ (n : BitVec 2) (s : State), s.Calm ∧
        s.portUp = true ∧
        (s.port n.toNat).linked = false) ∧
    (∃ (n : BitVec 2) (s : State) (h : HpAttr), s.Calm ∧
        s.LetIn h ∧
        s.Canonical ∧
        (s.port n.toNat).state = PortState.active ∧
        (s.port n.toNat).proposal = none) ∧
    (∃ (n : BitVec 2) (s : State) (h : HpAttr), s.Calm ∧
        s.LetIn h ∧
        s.Canonical ∧
        (s.port n.toNat).state = PortState.active ∧
        (∃ q, (s.port n.toNat).proposal = some q ∧ q.full = false)) ∧
    (∃ (n : BitVec 2) (s : State) (h : HpAttr), s.Calm ∧
        s.LetIn h ∧
        s.Canonical ∧
        (s.port n.toNat).state = PortState.park ∧
        (s.port n.toNat).kept = true) ∧
    (∃ (n : BitVec 2) (c : HpAttr → Instr) (s : State) (h : HpAttr), c ∈ [fun x => Instr.curRetrain x n, fun x => Instr.curRemap x n, fun x => Instr.curPark x n] ∧
        s.Calm ∧
        s.LetIn h ∧
        (s.port n.toNat).state ≠ PortState.active) ∧
    (∃ (n : BitVec 2) (s : State) (h : HpAttr), s.Calm ∧
        s.LetIn h ∧
        (s.port n.toNat).state ≠ PortState.park) :=
  ⟨⟨0, ⟨true, 7, 2, 1⟩, 0, live, calm_of (by decide +kernel), by decide +kernel⟩,
    ⟨w187, 0, canonical_of (by decide +kernel), calm_of (by decide +kernel), by decide +kernel⟩,
    ⟨0, live, calm_of (by decide +kernel), by decide +kernel⟩,
    ⟨0, w187, ⟨1, 0, true, true, 0⟩, calm_of (by decide +kernel), letIn_of (by decide +kernel), canonical_of (by decide +kernel), by decide +kernel⟩,
    ⟨0, w197, ⟨1, 0, true, true, 0⟩, calm_of (by decide +kernel), letIn_of (by decide +kernel), canonical_of (by decide +kernel), by decide +kernel⟩,
    ⟨0, w198, ⟨1, 0, true, true, 0⟩, calm_of (by decide +kernel), letIn_of (by decide +kernel), canonical_of (by decide +kernel), by decide +kernel⟩,
    ⟨0, (fun x => .curRetrain x 0), live, ⟨1, 0, true, true, 0⟩, by simp, calm_of (by decide +kernel), letIn_of (by decide +kernel), by decide +kernel⟩,
    ⟨0, live, ⟨1, 0, true, true, 0⟩, calm_of (by decide +kernel), letIn_of (by decide +kernel), by decide +kernel⟩⟩

/-- States and operands that meet the hypotheses of LinkTraining, clause by clause, part 1. -/
theorem test_meets_LinkTraining :
    (∃ (n : BitVec 2) (k : BitVec 3) (s : State), k.toNat < 5 ∧
        s.Calm ∧
        s.portUp = true ∧
        s.Canonical ∧
        (s.port n.toNat).state = PortState.detect) ∧
    (∃ (n : BitVec 2) (g : BitVec 5) (s : State), s.Calm ∧
        s.portUp = true ∧
        s.Canonical ∧
        (s.port n.toNat).state = PortState.eq ∧
        g &&& ~~~(s.port n.toNat).laneDis ≠ 0) ∧
    (∃ (n : BitVec 2) (g : BitVec 5) (s : State), s.Calm ∧
        s.portUp = true ∧
        s.Canonical ∧
        (s.port n.toNat).state = PortState.eq ∧
        g &&& ~~~(s.port n.toNat).laneDis = 0 ∧
        (s.port n.toNat).kindFull = false) ∧
    (∃ (n : BitVec 2) (g : BitVec 5) (s : State), s.Canonical ∧
        s.Calm ∧
        s.portUp = true ∧
        s.cu.route = 0 ∧
        (s.port n.toNat).state = PortState.eq ∧
        (s.port n.toNat).kindFull = true ∧
        g &&& ~~~(s.port n.toNat).laneDis = 0) ∧
    (∃ (n : BitVec 2) (g : BitVec 5) (s : State), s.Calm ∧
        s.portUp = true ∧
        (s.port n.toNat).state ≠ PortState.eq) ∧
    (∃ (n : BitVec 2) (k : BitVec 3) (b : BitVec 128) (s : State), k.toNat < 5 ∧
        s.Calm ∧
        s.portUp = true ∧
        s.Canonical ∧
        (s.port n.toNat).state ≠ PortState.off ∧
        (s.port n.toNat).state ≠ PortState.park ∧
        (s.port n.toNat).state ≠ PortState.detect ∧
        blockGood (if (s.port n.toNat).spare k.toNat = true then spareScramble k.toNat b else b) = false) ∧
    (∃ (n : BitVec 2) (k : BitVec 3) (b : BitVec 128) (s : State), k.toNat < 5 ∧
        blockGood b = true ∧
        s.Calm ∧
        s.portUp = true ∧
        s.Canonical ∧
        ((s.port n.toNat).state = PortState.align ∨ (s.port n.toNat).state = PortState.eq)) ∧
    (∃ (n : BitVec 2) (k : BitVec 3) (b : BitVec 128) (s : State), k.toNat < 5 ∧
        s.Calm ∧
        s.portUp = true ∧
        ((s.port n.toNat).state = PortState.off ∨ (s.port n.toNat).state = PortState.park ∨ (s.port n.toNat).state = PortState.detect)) ∧
    (∃ (n : BitVec 2) (s : State), s.Calm ∧
        s.portUp = true ∧
        s.Canonical ∧
        (s.port n.toNat).state = PortState.align ∧
        (s.port n.toNat).kindFull = false ∧
        (s.port n.toNat).peerValid = true ∧
        s.linksRise = true ∧
        s.domainOff (portDomain n.toNat) = false ∧
        (s.port n.toNat).peerIndex = s.gl.index) :=
  ⟨⟨0, 0, w199, by decide +kernel, calm_of (by decide +kernel), by decide +kernel, canonical_of (by decide +kernel), by decide +kernel⟩,
    ⟨0, 1, w200, calm_of (by decide +kernel), by decide +kernel, canonical_of (by decide +kernel), by decide +kernel⟩,
    ⟨0, 0, w200, calm_of (by decide +kernel), by decide +kernel, canonical_of (by decide +kernel), by decide +kernel⟩,
    ⟨1, 0, w201, canonical_of (by decide +kernel), calm_of (by decide +kernel), by decide +kernel⟩,
    ⟨0, 0, live, calm_of (by decide +kernel), by decide +kernel⟩,
    ⟨0, 0, 0x6F4F609A000000070110020301323AC6, w202, by decide +kernel, calm_of (by decide +kernel), by decide +kernel, canonical_of (by decide +kernel), by decide +kernel⟩,
    ⟨0, 0, 0xB5CAC32C000000070210041F01323AC7, w202, by decide +kernel, by decide +kernel, calm_of (by decide +kernel), by decide +kernel, canonical_of (by decide +kernel), by decide +kernel⟩,
    ⟨0, 0, 0xB5CAC32C000000070210041F01323AC7, live, by decide +kernel, calm_of (by decide +kernel), by decide +kernel⟩,
    ⟨0, w203, calm_of (by decide +kernel), by decide +kernel, canonical_of (by decide +kernel), by decide +kernel⟩⟩

/-- States and operands that meet the hypotheses of LinkTraining, clause by clause, part 2. -/
theorem test_meets_LinkTraining_more :
    (∃ (n : BitVec 2) (s : State), s.Calm ∧
        s.portUp = true ∧
        s.Canonical ∧
        (s.port n.toNat).state = PortState.align ∧
        (s.port n.toNat).kindFull = false ∧
        (s.port n.toNat).peerValid = true ∧
        s.linksRise = true ∧
        s.domainOff (portDomain n.toNat) = false ∧
        (s.port n.toNat).peerIndex ≠ s.gl.index ∧
        BitVec.extractLsb' 4 4 (s.port n.toNat).peerRev ≠ BitVec.extractLsb' 20 4 glbId) ∧
    (∃ (n : BitVec 2) (s : State), s.Calm ∧
        s.portUp = true ∧
        (s.port n.toNat).state ≠ PortState.align) ∧
    (∃ (n : BitVec 2) (s : State), s.Calm ∧
        s.portUp = true ∧
        (s.port n.toNat).state ≠ PortState.retrain) ∧
    (∃ (n : BitVec 2) (s : State), s.Calm ∧
        s.portUp = true ∧
        s.linksRise = false) ∧
    (∃ (n : BitVec 2) (c : Instr) (m : BitVec 5) (w : BitVec 3) (s : State), s.Calm ∧
        s.portUp = true ∧
        s.Canonical ∧
        s.linksRise = true ∧
        (s.port n.toNat).nextMap = some (m, w) ∧
        (c = Instr.retrainComplete n ∧ (s.port n.toNat).state = PortState.retrain ∨ c = Instr.alignComplete n ∧ (s.port n.toNat).state = PortState.align ∧ (s.port n.toNat).peerValid = true ∧ s.domainOff (portDomain n.toNat) = false ∧ (s.port n.toNat).peerIndex ≠ s.gl.index ∧ BitVec.extractLsb' 4 4 (s.port n.toNat).peerRev = BitVec.extractLsb' 20 4 glbId) ∧
        (s.port n.toNat).lockedOn m = false) ∧
    (∃ (n : BitVec 2) (c : Instr) (m : BitVec 5) (w : BitVec 3) (s : State), s.Calm ∧
        s.portUp = true ∧
        s.Canonical ∧
        s.linksRise = true ∧
        (s.port n.toNat).nextMap = some (m, w) ∧
        (c = Instr.retrainComplete n ∧ (s.port n.toNat).state = PortState.retrain ∨ c = Instr.alignComplete n ∧ (s.port n.toNat).state = PortState.align ∧ (s.port n.toNat).peerValid = true ∧ s.domainOff (portDomain n.toNat) = false ∧ (s.port n.toNat).peerIndex ≠ s.gl.index ∧ BitVec.extractLsb' 4 4 (s.port n.toNat).peerRev = BitVec.extractLsb' 20 4 glbId) ∧
        (s.port n.toNat).lockedOn m = true ∧
        (s.port n.toNat).ready = false) ∧
    (∃ (n : BitVec 2) (c : Instr) (m : BitVec 5) (w : BitVec 3) (s : State), s.Calm ∧
        s.portUp = true ∧
        s.Canonical ∧
        s.linksRise = true ∧
        (s.port n.toNat).nextMap = some (m, w) ∧
        (c = Instr.retrainComplete n ∧ (s.port n.toNat).state = PortState.retrain ∨ c = Instr.alignComplete n ∧ (s.port n.toNat).state = PortState.align ∧ (s.port n.toNat).peerValid = true ∧ s.domainOff (portDomain n.toNat) = false ∧ (s.port n.toNat).peerIndex ≠ s.gl.index ∧ BitVec.extractLsb' 4 4 (s.port n.toNat).peerRev = BitVec.extractLsb' 20 4 glbId) ∧
        (s.port n.toNat).lockedOn m = true ∧
        (s.port n.toNat).ready = true ∧
        ((s.port n.toNat).readyOut = false ∨ (s.port n.toNat).peerReady = false)) ∧
    (∃ (s : State) (n : BitVec 2) (m : BitVec 5) (w : BitVec 3), s.Canonical ∧
        s.Calm ∧
        s.portUp = true ∧
        s.awake = true ∧
        s.cu.route = 0 ∧
        s.cu.pairEn = false ∧
        (s.port n.toNat).nextMap = some (m, w) ∧
        (s.port n.toNat).ready = true ∧
        (s.port n.toNat).readyOut = true ∧
        (s.port n.toNat).peerReady = true ∧
        (s.port n.toNat).lockedOn m = true ∧
        (s.port n.toNat).again = false ∧
        (s.port n.toNat).state = PortState.align ∧
        (s.port n.toNat).kindFull = false ∧
        (s.port n.toNat).peerValid = true ∧
        s.domainOff (portDomain n.toNat) = false ∧
        (s.port n.toNat).peerIndex ≠ s.gl.index ∧
        BitVec.extractLsb' 4 4 (s.port n.toNat).peerRev = BitVec.extractLsb' 20 4 glbId) ∧
    (∃ (s : State) (n : BitVec 2) (m : BitVec 5) (w : BitVec 3), s.Canonical ∧
        s.Calm ∧
        s.portUp = true ∧
        s.awake = true ∧
        s.cu.route = 0 ∧
        s.cu.pairEn = false ∧
        (s.port n.toNat).nextMap = some (m, w) ∧
        (s.port n.toNat).ready = true ∧
        (s.port n.toNat).readyOut = true ∧
        (s.port n.toNat).peerReady = true ∧
        (s.port n.toNat).lockedOn m = true ∧
        (s.port n.toNat).again = false ∧
        (s.port n.toNat).state = PortState.retrain ∧
        m = (s.port n.toNat).oldMap ∧
        w = (s.port n.toNat).oldWidth) ∧
    (∃ (a : BitVec 5) (b : BitVec 5) (x : BitVec 3) (y : BitVec 3) (m : BitVec 5) (w : BitVec 3), linkMap a b x y = some (m, w)) :=
  ⟨⟨0, w204, calm_of (by decide +kernel), by decide +kernel, canonical_of (by decide +kernel), by decide +kernel⟩,
    ⟨0, live, calm_of (by decide +kernel), by decide +kernel⟩,
    ⟨0, live, calm_of (by decide +kernel), by decide +kernel⟩,
    ⟨0, w205, calm_of (by decide +kernel), by decide +kernel⟩,
    ⟨3, .retrainComplete 3, 0xF, 4, w206, calm_of (by decide +kernel), by decide +kernel, canonical_of (by decide +kernel), by decide +kernel⟩,
    ⟨3, .retrainComplete 3, 0xF, 4, w207, calm_of (by decide +kernel), by decide +kernel, canonical_of (by decide +kernel), by decide +kernel⟩,
    ⟨3, .retrainComplete 3, 0xF, 4, w208, calm_of (by decide +kernel), by decide +kernel, canonical_of (by decide +kernel), by decide +kernel⟩,
    ⟨w209, 0, 0xF, 4, canonical_of (by decide +kernel), calm_of (by decide +kernel), by decide +kernel⟩,
    ⟨w210, 3, 0xF, 4, canonical_of (by decide +kernel), calm_of (by decide +kernel), by decide +kernel⟩,
    ⟨1, 1, 1, 1, 1, 1, by decide +kernel⟩⟩

/-- States and operands that meet the hypotheses of LanesWakeAndConfiguration, clause by clause, part 1. -/
theorem test_meets_LanesWakeAndConfiguration :
    (∃ (n : BitVec 2) (k : BitVec 3) (s : State), k.toNat < 5 ∧
        s.Calm ∧
        s.portUp = true ∧
        (s.port n.toNat).spare k.toNat = false) ∧
    (∃ (n : BitVec 2) (k : BitVec 3) (s : State), k.toNat < 5 ∧
        s.Calm ∧
        s.portUp = true ∧
        s.Canonical ∧
        (s.port n.toNat).spare k.toNat = true ∧
        ((s.port n.toNat).lane k.toNat).locked = true ∧
        1500 < s.age ((s.port n.toNat).lane k.toNat).lastAt) ∧
    (∃ (n : BitVec 2) (k : BitVec 3) (s : State), k.toNat < 5 ∧
        s.Calm ∧
        s.portUp = true ∧
        ((s.port n.toNat).spare k.toNat = false ∨ s.age ((s.port n.toNat).lane k.toNat).lastAt ≤ 1500)) ∧
    (∃ (n : BitVec 2) (k : BitVec 3) (s : State), k.toNat < 5 ∧
        s.Calm ∧
        s.portUp = true ∧
        s.Canonical ∧
        (s.port n.toNat).state = PortState.active ∧
        (s.port n.toNat).map.getLsbD k.toNat = true) ∧
    (∃ (n : BitVec 2) (k : BitVec 3) (s : State), k.toNat < 5 ∧
        s.Calm ∧
        s.portUp = true ∧
        (s.port n.toNat).map.getLsbD k.toNat = false) ∧
    (∃ (n : BitVec 2) (s : State), s.Calm ∧
        s.portUp = true ∧
        s.Canonical ∧
        s.awake = true ∧
        (s.port n.toNat).state = PortState.park ∧
        (s.port n.toNat).kept = true) ∧
    (∃ (n : BitVec 2) (s : State), s.Calm ∧
        s.portUp = true ∧
        s.Canonical ∧
        s.awake = true ∧
        (s.port n.toNat).state ≠ PortState.park) :=
  ⟨⟨0, 0, live, by decide +kernel, calm_of (by decide +kernel), by decide +kernel⟩,
    ⟨0, 4, w211, by decide +kernel, calm_of (by decide +kernel), by decide +kernel, canonical_of (by decide +kernel), by decide +kernel⟩,
    ⟨0, 0, live, by decide +kernel, calm_of (by decide +kernel), by decide +kernel⟩,
    ⟨0, 0, w212, by decide +kernel, calm_of (by decide +kernel), by decide +kernel, canonical_of (by decide +kernel), by decide +kernel⟩,
    ⟨0, 0, live, by decide +kernel, calm_of (by decide +kernel), by decide +kernel⟩,
    ⟨2, w213, calm_of (by decide +kernel), by decide +kernel, canonical_of (by decide +kernel), by decide +kernel⟩,
    ⟨0, live, calm_of (by decide +kernel), by decide +kernel, canonical_of (by decide +kernel), by decide +kernel⟩⟩

/-- States and operands that meet the hypotheses of LanesWakeAndConfiguration, clause by clause, part 2. -/
theorem test_meets_LanesWakeAndConfiguration_more :
    (∃ (n : BitVec 2) (s : State), s.Canonical ∧
        s.Calm ∧
        s.portUp = true ∧
        s.np.state = PwrState.nap ∧
        s.np.target = 1 ∧
        (s.port n.toNat).state = PortState.park) ∧
    (∃ (n : BitVec 2) (s : State), s.Calm ∧
        s.portUp = true ∧
        (s.np.state = PwrState.nap ∨ s.np.state = PwrState.sleep) ∧
        s.np.target ≠ 1) ∧
    (∃ (n : BitVec 2) (s : State), s.Calm ∧
        s.portUp = true ∧
        s.Canonical ∧
        (∃ a, (s.port n.toNat).wakeOut = some a ∧ 100000 ≤ s.age a)) ∧
    (∃ (n : BitVec 2) (s : State), s.Calm ∧
        s.portUp = true ∧
        (∀ (a : Word), (s.port n.toNat).wakeOut = some a → s.age a < 100000)) ∧
    (∃ (n : BitVec 2) (v : Word) (s : State) (h : HpAttr), BitVec.getLsbD v 0 = true ∧
        s.Calm ∧
        s.LetIn h ∧
        s.Canonical ∧
        (s.port n.toNat).state = PortState.off ∧
        s.looping n.toNat = false ∧
        s.domainOff (portDomain n.toNat) = false ∧
        s.ts.portsLost.getLsbD n.toNat = false) ∧
    (∃ (n : BitVec 2) (v : Word) (s : State) (h : HpAttr), BitVec.getLsbD v 0 = false ∧
        s.Calm ∧
        s.LetIn h ∧
        s.Canonical ∧
        (s.port n.toNat).state = PortState.off ∧
        s.looping n.toNat = false) ∧
    (∃ (n : BitVec 2) (v : Word) (s : State) (h : HpAttr), BitVec.getLsbD v 0 = false ∧
        s.Canonical ∧
        s.Calm ∧
        s.LetIn h ∧
        s.cu.route = 0 ∧
        s.looping n.toNat = false ∧
        (s.port n.toNat).enable = true ∧
        (s.port n.toNat).state = PortState.active) :=
  ⟨⟨2, w214, canonical_of (by decide +kernel), calm_of (by decide +kernel), by decide +kernel⟩,
    ⟨0, w205, calm_of (by decide +kernel), by decide +kernel⟩,
    ⟨0, w215, calm_of (by decide +kernel), by decide +kernel, canonical_of (by decide +kernel), ⟨0x123400000, by decide +kernel, by decide +kernel⟩⟩,
    ⟨0, live, calm_of (by decide +kernel), by decide +kernel, fun a h => by cases (show (none : Option Word) = some a from h)⟩,
    ⟨0, 1, live, ⟨1, 0, true, true, 0⟩, by decide +kernel, calm_of (by decide +kernel), letIn_of (by decide +kernel), canonical_of (by decide +kernel), by decide +kernel⟩,
    ⟨0, 0, live, ⟨1, 0, true, true, 0⟩, by decide +kernel, calm_of (by decide +kernel), letIn_of (by decide +kernel), canonical_of (by decide +kernel), by decide +kernel⟩,
    ⟨0, 0, w216, ⟨1, 0, true, true, 0⟩, by decide +kernel, canonical_of (by decide +kernel), calm_of (by decide +kernel), letIn_of (by decide +kernel), by decide +kernel⟩⟩

/-- States and operands that meet the hypotheses of RemoteEntries, clause by clause, part 1. -/
theorem test_meets_RemoteEntries :
    (∃ (s : State) (n : BitVec 2) (room : BitVec 16) (ev : BitVec 17) (g : BitVec 8) (pri : W12) (payload : BitVec 36) (mask : Bool), s.Canonical ∧
        s.Calm ∧
        s.portUp = true ∧
        s.cu.route = 0 ∧
        (s.port n.toNat).state = PortState.active ∧
        s.roomGiven (s.peerOf n.toNat) room.toNat = true ∧
        room.toNat < 4096 ∧
        s.visitor (4096 * s.peerOf n.toNat + room.toNat) = none ∧
        tget none (s.peer (s.peerOf n.toNat)).reports room.toNat = none ∧
        (s.peer (s.peerOf n.toNat)).returns = [] ∧
        s.NoCandidate g.toNat ∧
        s.enabled g.toNat = false) ∧
    (∃ (s : State) (n : BitVec 2) (room : BitVec 16) (ev : BitVec 17) (g : BitVec 8) (pri : W12) (payload : BitVec 36) (mask : Bool), s.Canonical ∧
        s.Calm ∧
        s.portUp = true ∧
        s.cu.route = 0 ∧
        (s.port n.toNat).state = PortState.active ∧
        s.roomGiven (s.peerOf n.toNat) room.toNat = false) ∧
    (∃ (s : State) (n : BitVec 2) (room : BitVec 16) (v : Visitor) (pri : W12) (payload : BitVec 36) (u : BitVec 4) (mask : Bool) (has : Bool), s.Canonical ∧
        s.Calm ∧
        s.portUp = true ∧
        s.cu.route = 0 ∧
        (s.port n.toNat).linked = true ∧
        s.roomGiven (s.peerOf n.toNat) room.toNat = true ∧
        s.visitor (4096 * s.peerOf n.toNat + room.toNat) = some v ∧
        v.home.toNat = s.peerOf n.toNat ∧
        v.room.toNat = room.toNat ∧
        v.state = VisState.queued ∧
        pri = v.priority ∧
        (s.target v.target.toNat).bands = [] ∧
        (s.target v.target.toNat).offered = none ∧
        s.enabled v.target.toNat = false) ∧
    (∃ (s : State) (n : BitVec 2) (room : BitVec 16) (v : Visitor) (pri : W12) (payload : BitVec 36) (u : BitVec 4) (mask : Bool) (has : Bool), s.Canonical ∧
        s.Calm ∧
        s.portUp = true ∧
        s.cu.route = 0 ∧
        (s.port n.toNat).linked = true ∧
        s.roomGiven (s.peerOf n.toNat) room.toNat = true ∧
        s.visitor (4096 * s.peerOf n.toNat + room.toNat) = some v ∧
        v.home.toNat = s.peerOf n.toNat ∧
        v.room.toNat = room.toNat ∧
        v.state = VisState.claimed ∧
        has = false) ∧
    (∃ (s : State) (n : BitVec 2) (room : BitVec 16) (v : Visitor), s.Canonical ∧
        s.Calm ∧
        s.portUp = true ∧
        s.cu.route = 0 ∧
        (s.port n.toNat).linked = true ∧
        s.roomGiven (s.peerOf n.toNat) room.toNat = true ∧
        s.visitor (4096 * s.peerOf n.toNat + room.toNat) = some v ∧
        v.home.toNat = s.peerOf n.toNat ∧
        v.room.toNat = room.toNat ∧
        v.state = VisState.queued ∧
        (s.target v.target.toNat).front = [131072 + (4096 * s.peerOf n.toNat + room.toNat)] ∧
        (s.target v.target.toNat).bands = [] ∧
        (s.target v.target.toNat).offered = none) ∧
    (∃ (s : State) (n : BitVec 2) (room : BitVec 16) (ev : BitVec 17) (u : BitVec 4) (r : Room), s.Canonical ∧
        s.Calm ∧
        s.portUp = true ∧
        s.cu.route = 0 ∧
        s.gb.enable = false ∧
        (s.port n.toNat).linked = true ∧
        tget none (s.peer (s.peerOf n.toNat)).rooms room.toNat = some r ∧
        twf none (s.peer (s.peerOf n.toNat)).rooms = true ∧
        r.event = ev.toNat ∧
        (s.side ev.toNat).room = some (BitVec.ofNat 2 (s.peerOf n.toNat), BitVec.setWidth 12 room) ∧
        room.toNat < 4096 ∧
        s.busy ev.toNat = false ∧
        (s.side ev.toNat).placed = none ∧
        (s.side ev.toNat).holder = none ∧
        (s.side ev.toNat).ucount = u ∧
        isWired ev.toNat = false ∧
        (s.entry ev.toNat).state = EvState.queued) :=
  ⟨⟨w217, 1, 0, 0, 0, 0, 0, false, canonical_of (by decide +kernel), calm_of (by decide +kernel), by decide +kernel, by decide +kernel, by decide +kernel, by decide +kernel, by decide +kernel, by decide +kernel, by decide +kernel, by decide +kernel, noCandidate_of (by decide +kernel), by decide +kernel⟩,
    ⟨w218, 1, 0, 0, 0, 0, 0, false, canonical_of (by decide +kernel), calm_of (by decide +kernel), by decide +kernel⟩,
    ⟨w219, 1, 3, ⟨1, 3, 0x777, 5, 0x14, 9, false, 2, .queued, none, 6⟩, 0x14, 0, 0, false, false, canonical_of (by decide +kernel), calm_of (by decide +kernel), by decide +kernel⟩,
    ⟨w220, 1, 4, ⟨1, 4, 0x777, 5, 0x14, 9, false, 2, .claimed, some 5, 6⟩, 0, 0, 0, false, false, canonical_of (by decide +kernel), calm_of (by decide +kernel), by decide +kernel⟩,
    ⟨w221, 1, 3, ⟨1, 3, 0x777, 5, 0x14, 9, false, 2, .queued, none, 6⟩, canonical_of (by decide +kernel), calm_of (by decide +kernel), by decide +kernel⟩,
    ⟨w222, 1, 2, 0x450, 0, ⟨0x450, false, false, true⟩, canonical_of (by decide +kernel), calm_of (by decide +kernel), by decide +kernel⟩⟩

/-- States and operands that meet the hypotheses of RemoteEntries, clause by clause, part 2. -/
theorem test_meets_RemoteEntries_more :
    (∃ (s : State) (n : BitVec 2) (room : BitVec 16) (ev : BitVec 17) (u : BitVec 4) (r : Room), s.Canonical ∧
        s.Calm ∧
        s.portUp = true ∧
        s.cu.route = 0 ∧
        s.gb.enable = false ∧
        (s.port n.toNat).linked = true ∧
        tget none (s.peer (s.peerOf n.toNat)).rooms room.toNat = some r ∧
        twf none (s.peer (s.peerOf n.toNat)).rooms = true ∧
        r.event = ev.toNat ∧
        (s.side ev.toNat).room = some (BitVec.ofNat 2 (s.peerOf n.toNat), BitVec.setWidth 12 room) ∧
        room.toNat < 4096 ∧
        s.busy ev.toNat = false ∧
        (s.side ev.toNat).placed = none ∧
        (s.side ev.toNat).holder = none ∧
        (s.side ev.toNat).ucount = u ∧
        isWired ev.toNat = false ∧
        (s.entry ev.toNat).state = EvState.offered) ∧
    (∃ (s : State) (n : BitVec 2) (room : BitVec 16) (ev : BitVec 17) (u : BitVec 4) (r : Room), s.Canonical ∧
        s.Calm ∧
        s.portUp = true ∧
        s.cu.route = 0 ∧
        s.gb.enable = false ∧
        (s.port n.toNat).linked = true ∧
        tget none (s.peer (s.peerOf n.toNat)).rooms room.toNat = some r ∧
        twf none (s.peer (s.peerOf n.toNat)).rooms = true ∧
        r.event = ev.toNat ∧
        (s.side ev.toNat).room = some (BitVec.ofNat 2 (s.peerOf n.toNat), BitVec.setWidth 12 room) ∧
        room.toNat < 4096 ∧
        s.busy ev.toNat = false ∧
        (s.side ev.toNat).placed = none ∧
        (s.side ev.toNat).holder = none ∧
        (s.side ev.toNat).ucount = u ∧
        isWired ev.toNat = false ∧
        (s.entry ev.toNat).state = EvState.claimed ∧
        r.returned = false) ∧
    (∃ (s : State) (n : BitVec 2) (room : BitVec 16) (ev : BitVec 17) (u : BitVec 4) (r : Room) (st : Byte), s.Canonical ∧
        s.Calm ∧
        s.portUp = true ∧
        s.cu.route = 0 ∧
        s.gb.enable = false ∧
        (s.port n.toNat).linked = true ∧
        tget none (s.peer (s.peerOf n.toNat)).rooms room.toNat = some r ∧
        twf none (s.peer (s.peerOf n.toNat)).rooms = true ∧
        r.event ≠ ev.toNat ∧
        st ≠ 4 ∧
        st ≠ 5) ∧
    (∃ (n : BitVec 2) (m : BitVec 16) (s : State), s.Calm ∧
        s.portUp = true ∧
        (s.port n.toNat).linked = true ∧
        s.cu.route = 0) ∧
    (∃ (v : Word) (s : State) (h : HpAttr), s.Calm ∧
        s.LetIn h ∧
        (List.map (fun b => if b = s.gl.index.toNat then 0 else (BitVec.extractLsb' (13 * b) 13 v).toNat) (List.range 4)).sum ≤ 4096 ∧
        (∀ (n : BitVec 2), (s.port n.toNat).state ≠ PortState.active)) ∧
    (∃ (v : Word) (n : BitVec 2) (s : State) (h : HpAttr), s.Calm ∧
        s.LetIn h ∧
        (List.map (fun b => if b = s.gl.index.toNat then 0 else (BitVec.extractLsb' (13 * b) 13 v).toNat) (List.range 4)).sum ≤ 4096 ∧
        (s.port n.toNat).state = PortState.active ∧
        (∀ (m : BitVec 2), m ≠ n → (s.port m.toNat).state ≠ PortState.active)) ∧
    (∃ (v : Word) (s : State) (h : HpAttr), s.Calm ∧
        s.LetIn h ∧
        4096 < (List.map (fun b => if b = s.gl.index.toNat then 0 else (BitVec.extractLsb' (13 * b) 13 v).toNat) (List.range 4)).sum) :=
  ⟨⟨w223, 1, 3, 0x451, 0, ⟨0x451, true, false, true⟩, canonical_of (by decide +kernel), calm_of (by decide +kernel), by decide +kernel⟩,
    ⟨w224, 1, 4, 0x452, 0, ⟨0x452, false, false, true⟩, canonical_of (by decide +kernel), calm_of (by decide +kernel), by decide +kernel⟩,
    ⟨w225, 1, 2, 0, 0, ⟨0x450, false, false, true⟩, 0, canonical_of (by decide +kernel), calm_of (by decide +kernel), by decide +kernel⟩,
    ⟨1, 0, w226, calm_of (by decide +kernel), by decide +kernel⟩,
    ⟨0, live, ⟨1, 0, true, true, 0⟩, calm_of (by decide +kernel), letIn_of (by decide +kernel), by decide +kernel⟩,
    ⟨0, 1, w218, ⟨1, 0, true, true, 0⟩, calm_of (by decide +kernel), letIn_of (by decide +kernel), by decide +kernel⟩,
    ⟨0x2007FFFFFFFFFF, live, ⟨1, 0, true, true, 0⟩, calm_of (by decide +kernel), letIn_of (by decide +kernel), by decide +kernel⟩⟩

/-- States and operands that meet the hypotheses of Pairing, clause by clause. -/
theorem test_meets_Pairing :
    (∃ (s : State) (n : BitVec 2) (kind : Byte) (seq : BitVec 16) (item : BitVec 32) (low : Word) (d : BitVec 128), s.stillFns = [] ∧
        s.gb.gapDue = none ∧
        s.fm.mig = none ∧
        s.NoneWaits ∧
        s.portUp = true ∧
        (s.port n.toNat).linked = true ∧
        s.mirrorPort n.toNat = true ∧
        2 * s.cu.mirrorIn.length + 2 ≤ 4096) ∧
    (∃ (s : State) (n : BitVec 2) (kind : Byte) (seq : BitVec 16) (item : BitVec 32) (low : Word) (d : BitVec 128) (e : BitVec 32) (x : Entry), s.stillFns = [] ∧
        s.gb.gapDue = none ∧
        s.fm.mig = none ∧
        s.NoneWaits ∧
        s.portUp = true ∧
        (s.port n.toNat).linked = true ∧
        s.mirrorPort n.toNat = true ∧
        s.cu.mirrorIn = [{ kind := 0, item := e, low := 0, data := d }] ∧
        d ≠ BitVec.allOnes 128 ∧
        (s.port n.toNat).state = PortState.active ∧
        s.cu.unrestored = [] ∧
        entryOfData d = x ∧
        s.er.shadow = false) ∧
    (∃ (s : State) (n : BitVec 2) (kind : Byte) (seq : BitVec 16) (item : BitVec 32) (low : Word) (d : BitVec 128), s.stillFns = [] ∧
        s.gb.gapDue = none ∧
        s.fm.mig = none ∧
        s.NoneWaits ∧
        s.portUp = true ∧
        (s.port n.toNat).linked = true ∧
        s.mirrorPort n.toNat = true ∧
        s.er.shadow = true ∧
        s.cu.mirrorIn.length < 2000 ∧
        (s.port n.toNat).state = PortState.active) ∧
    (∃ (s : State) (n : BitVec 2) (kind : Byte) (seq : BitVec 16) (item : BitVec 32) (low : Word) (d : BitVec 128) (freed : BitVec 16), s.stillFns = [] ∧
        s.gb.gapDue = none ∧
        s.fm.mig = none ∧
        s.NoneWaits ∧
        s.portUp = true ∧
        (s.port n.toNat).linked = true ∧
        s.mirrorPort n.toNat = true ∧
        s.cu.pair = PairState.paired ∧
        s.cu.mirrorQ = []) ∧
    (∃ (s : State) (n : BitVec 2) (kind : Byte) (seq : BitVec 16) (item : BitVec 32) (low : Word) (d : BitVec 128) (freed : BitVec 16) (g : List (BitVec 128)), s.stillFns = [] ∧
        s.gb.gapDue = none ∧
        s.fm.mig = none ∧
        s.NoneWaits ∧
        s.portUp = true ∧
        (s.port n.toNat).linked = true ∧
        s.mirrorPort n.toNat = true ∧
        s.Canonical ∧
        s.cu.pair = PairState.paired ∧
        s.cu.mirrorQ = [g] ∧
        freed.toNat ≤ s.cu.backlog.toNat ∧
        s.cu.backlog.toNat - freed.toNat + g.length ≤ 4096 ∧
        (s.port s.cu.pairPort.toNat).state = PortState.active) ∧
    (∃ (v : Word) (s : State) (h : HpAttr), s.Calm ∧
        s.LetIn h ∧
        s.st.sealed = false ∧
        s.st.sealing = false ∧
        s.looping (BitVec.extractLsb' 1 2 v).toNat = false) ∧
    (∃ (v : Word) (s : State) (h : HpAttr), s.Calm ∧
        s.LetIn h ∧
        s.st.sealed = true ∧
        s.looping (BitVec.extractLsb' 1 2 v).toNat = false) ∧
    (∃ (v : Word) (s : State) (h : HpAttr), s.stillFns = [] ∧
        s.gb.gapDue = none ∧
        s.fm.mig = none ∧
        s.LetIn h ∧
        s.st.sealed = true ∧
        s.cu.pair = PairState.paired ∧
        BitVec.extractLsb' 1 2 v ≠ s.cu.pairPort ∧
        s.looping (BitVec.extractLsb' 1 2 v).toNat = false ∧
        (s.port (BitVec.extractLsb' 1 2 v).toNat).state ≠ PortState.active) ∧
    (∃ (s : State) (n : BitVec 2) (m : BitVec 5) (w : BitVec 3), s.Canonical ∧
        s.Calm ∧
        s.portUp = true ∧
        s.awake = true ∧
        s.cu.route = 0 ∧
        s.cu.pairEn = true ∧
        s.cu.pair = PairState.waiting ∧
        s.st.sealed = true ∧
        s.cu.pairPort = n ∧
        (s.port n.toNat).state = PortState.retrain ∧
        (s.port n.toNat).nextMap = some (m, w) ∧
        m = (s.port n.toNat).oldMap ∧
        w = (s.port n.toNat).oldWidth ∧
        (s.port n.toNat).ready = true ∧
        (s.port n.toNat).readyOut = true ∧
        (s.port n.toNat).peerReady = true ∧
        (s.port n.toNat).lockedOn m = true ∧
        (s.port n.toNat).again = false) ∧
    (∃ (s : State) (h : HpAttr) (e : Nat) (x : Entry), s.Canonical ∧
        s.Calm ∧
        s.LetIn h ∧
        s.cu.pair = PairState.broken ∧
        s.er.shadow = false ∧
        s.cu.shFns = [] ∧
        s.cu.shCtxs = [] ∧
        s.cu.peers = [] ∧
        s.rn.visitors = [] ∧
        s.cu.shEntries = [(e, x)] ∧
        1088 ≤ e ∧
        x.state = EvState.posted ∧
        s.gb.enable = false ∧
        s.Unplaced 13 ∧
        (s.entry 13).direct = false) ∧
    (∃ (s : State) (h : HpAttr), s.Calm ∧
        s.LetIn h ∧
        (s.cu.pair ≠ PairState.broken ∨ s.er.shadow = true)) :=
  ⟨⟨w227, 1, 0, 0, 0x10010, 0, 0x7000000000123000012C000009801, by decide +kernel, by decide +kernel, by decide +kernel, noneWaits_of (by decide +kernel), by decide +kernel⟩,
    ⟨w228, 1, 0, 0, 0x10010, 0, 0x7000000000123000012C000009801, 0x10020, { state := .posted, run := true, priority := 9, function := 0x12C, payload := 0x123, version := 7 }, by decide +kernel, by decide +kernel, by decide +kernel, noneWaits_of (by decide +kernel), by decide +kernel⟩,
    ⟨w229, 1, 0, 0, 0x10010, 0, 0x7000000000123000012C000009801, by decide +kernel, by decide +kernel, by decide +kernel, noneWaits_of (by decide +kernel), by decide +kernel⟩,
    ⟨w230, 1, 0, 0, 0x10010, 0, 0x7000000000123000012C000009801, 0, by decide +kernel, by decide +kernel, by decide +kernel, noneWaits_of (by decide +kernel), by decide +kernel⟩,
    ⟨w231, 1, 0, 0, 0x10010, 0, 0x7000000000123000012C000009801, 0, [0x7000000000123000012C000009801], by decide +kernel, by decide +kernel, by decide +kernel, noneWaits_of (by decide +kernel), by decide +kernel, by decide +kernel, by decide +kernel, canonical_of (by decide +kernel), by decide +kernel⟩,
    ⟨0, w104, ⟨1, 0, true, true, 0⟩, calm_of (by decide +kernel), letIn_of (by decide +kernel), by decide +kernel⟩,
    ⟨0, live, ⟨1, 0, true, true, 0⟩, calm_of (by decide +kernel), letIn_of (by decide +kernel), by decide +kernel⟩,
    ⟨0, w232, ⟨1, 0, true, true, 0⟩, by decide +kernel, by decide +kernel, by decide +kernel, letIn_of (by decide +kernel), by decide +kernel⟩,
    ⟨w233, 1, 0xF, 4, canonical_of (by decide +kernel), calm_of (by decide +kernel), by decide +kernel⟩,
    ⟨w234, ⟨1, 0, true, true, 0⟩, 0x10010, { state := .posted, run := true, priority := 9, function := 0x12C, payload := 0x123, version := 7 }, canonical_of (by decide +kernel), calm_of (by decide +kernel), letIn_of (by decide +kernel), by decide +kernel, by decide +kernel, by decide +kernel, by decide +kernel, by decide +kernel, by decide +kernel, by decide +kernel, by decide +kernel, by decide +kernel, by decide +kernel, unplaced_of (by decide +kernel), by decide +kernel⟩,
    ⟨live, ⟨1, 0, true, true, 0⟩, calm_of (by decide +kernel), letIn_of (by decide +kernel), by decide +kernel⟩⟩

/-- States and operands that meet the hypotheses of ScrubbingAndTime, clause by clause. -/
theorem test_meets_ScrubbingAndTime :
    (∃ (s : State) (arr : BitVec 5) (loc : BitVec 19), s.mirrorOn = false ∧
        s.NoneWaits ∧
        s.live = true ∧
        1 ≤ arr.toNat ∧
        arr.toNat ≤ 16 ∧
        arr ≠ 5) ∧
    (∃ (s : State) (loc : BitVec 19), s.Alone loc.toNat ∧
        s.live = true ∧
        1088 ≤ loc.toNat ∧
        loc.toNat < nEntries ∧
        s.er.valid = false ∧
        s.Unplaced 1 ∧
        (s.entry 1).direct = false) ∧
    (∃ (s : State) (loc : BitVec 19) (k : Hold), s.Alone 1 ∧
        s.live = true ∧
        s.er.valid = false ∧
        s.cf.holds = [k] ∧
        k.event = loc.toNat ∧
        loc.toNat ≠ 1 ∧
        (s.entry 1).state = EvState.idle ∧
        (s.entry 1).sensitive = false ∧
        (s.entry 1).direct = false) ∧
    (∃ (arr : BitVec 5) (loc : BitVec 19) (s : State), 1 ≤ arr.toNat ∧
        arr.toNat ≤ 16 ∧
        arr ≠ 1 ∧
        s.Calm ∧
        s.live = true ∧
        True) ∧
    (∃ (arr : BitVec 5) (loc : BitVec 19) (s : State), 1 ≤ arr.toNat ∧
        arr.toNat ≤ 16 ∧
        arr = 1 ∧
        loc.toNat < nEntries ∧
        s.Calm ∧
        s.live = true ∧
        (s.side loc.toNat).task = true ∧
        s.dispatchable loc.toNat = true ∧
        (s.side loc.toNat).taskSeen = false) ∧
    (∃ (arr : BitVec 5) (loc : BitVec 19) (s : State), 1 ≤ arr.toNat ∧
        arr.toNat ≤ 16 ∧
        arr = 1 ∧
        loc.toNat < nEntries ∧
        s.Calm ∧
        s.live = true ∧
        (s.side loc.toNat).task = true ∧
        s.dispatchable loc.toNat = true ∧
        (s.side loc.toNat).taskSeen = true) ∧
    (∃ (e : BitVec 17) (s : State), s.Calm ∧
        s.live = true ∧
        (s.side e.toNat).wait = true ∧
        s.cu.unrestored = []) ∧
    (∃ (e : BitVec 17) (s : State), s.Calm ∧
        s.live = true ∧
        (s.side e.toNat).wait = false) ∧
    (∃ (s : State) (v : Word), s.portUp = true) ∧
    (∃ (s : State) (v : Word), s.portUp = false) :=
  ⟨⟨live, 1, 0, by decide +kernel, noneWaits_of (by decide +kernel), by decide +kernel⟩,
    ⟨live, 0x450, alone_of (by decide +kernel), by decide +kernel, by decide +kernel, by decide +kernel, by decide +kernel, unplaced_of (by decide +kernel), by decide +kernel⟩,
    ⟨w235, 0x450, ⟨0x450, 5, some 3, false, 1, 0⟩, alone_of (by decide +kernel), by decide +kernel⟩,
    ⟨3, 0, live, by decide +kernel, by decide +kernel, by decide +kernel, calm_of (by decide +kernel), by decide +kernel, trivial⟩,
    ⟨1, 0x450, w236, by decide +kernel, by decide +kernel, by decide +kernel, by decide +kernel, calm_of (by decide +kernel), by decide +kernel⟩,
    ⟨1, 0x451, w237, by decide +kernel, by decide +kernel, by decide +kernel, by decide +kernel, calm_of (by decide +kernel), by decide +kernel⟩,
    ⟨0x450, w238, calm_of (by decide +kernel), by decide +kernel⟩,
    ⟨0, live, calm_of (by decide +kernel), by decide +kernel⟩,
    ⟨live, 0, by decide +kernel⟩,
    ⟨w239, 0, by decide +kernel⟩⟩

/-- States and operands that meet the hypotheses of PowerChanges, clause by clause, part 1. -/
theorem test_meets_PowerChanges :
    (∃ (s : State) (h : HpAttr) (c : HpAttr → Instr) (k : BitVec 2), (c = Instr.pwrNap ∧ k = 1 ∨ c = Instr.pwrSleep ∧ k = 2) ∧
        s.Calm ∧
        s.LetIn h ∧
        s.pwrCode h ≠ 0) ∧
    (∃ (s : State) (h : HpAttr) (c : HpAttr → Instr) (k : BitVec 2), (c = Instr.pwrNap ∧ k = 1 ∨ c = Instr.pwrSleep ∧ k = 2) ∧
        s.Calm ∧
        s.LetIn h ∧
        s.pwrCode h = 0 ∧
        s.cu.ports = [] ∧
        s.mi.channels = [] ∧
        s.wf.level &&& (s.wf.inputs ^^^ s.wf.activeLow) = 0) ∧
    (∃ (s : State) (h : HpAttr) (c : HpAttr → Instr) (k : BitVec 2), (c = Instr.pwrNap ∧ k = 1 ∨ c = Instr.pwrSleep ∧ k = 2) ∧
        s.Calm ∧
        s.LetIn h ∧
        privPf h = false) ∧
    (∃ (s : State) (h : HpAttr) (c : HpAttr → Instr) (k : BitVec 2), (c = Instr.pwrNap ∧ k = 1 ∨ c = Instr.pwrSleep ∧ k = 2) ∧
        s.Calm ∧
        s.LetIn h ∧
        privPf h = true ∧
        s.fm.fns = [] ∧
        s.fm.busy = true) ∧
    (∃ (s : State) (h : HpAttr) (c : HpAttr → Instr) (k : BitVec 2), (c = Instr.pwrNap ∧ k = 1 ∨ c = Instr.pwrSleep ∧ k = 2) ∧
        s.Calm ∧
        s.LetIn h ∧
        privPf h = true ∧
        s.fm.fns = [] ∧
        s.fm.busy = false ∧
        s.workless = false) ∧
    (∃ (s : State), s.Calm ∧
        s.portUp = true ∧
        s.np.state = PwrState.entering ∧
        s.np.saved = false ∧
        s.portsParked = true ∧
        (∀ (n : Nat), s.looping n = false)) ∧
    (∃ (s : State), s.Calm ∧
        s.portUp = true ∧
        (s.np.state ≠ PwrState.entering ∨ s.portsParked = false)) ∧
    (∃ (d : BitVec 5) (s : State), d.toNat < 24 ∧
        s.Calm ∧
        s.portUp = true ∧
        s.isGated d.toNat = false) ∧
    (∃ (d : BitVec 5) (s : State), d.toNat < 24 ∧
        s.Calm ∧
        s.portUp = true ∧
        d.toNat < 16 ∧
        s.isGated d.toNat = true ∧
        s.np.pswEn.getLsbD d.toNat = true ∧
        s.awake = true ∧
        s.np.ret.getLsbD d.toNat = true ∧
        s.st.storeOk.getLsbD d.toNat = true ∧
        s.st.reloading = 0) ∧
    (∃ (d : BitVec 5) (s : State), d.toNat < 24 ∧
        s.Calm ∧
        s.portUp = true ∧
        d.toNat < 16 ∧
        s.np.pswEn.getLsbD d.toNat = false ∧
        s.awake = true ∧
        s.np.ungateDue.getLsbD d.toNat = true) :=
  ⟨⟨live, ⟨2, 1, false, false, 7⟩, Instr.pwrNap, 1, .inl ⟨rfl, rfl⟩, calm_of (by decide +kernel), letIn_of (by decide +kernel), by decide +kernel⟩,
    ⟨live, ⟨1, 0, true, true, 0⟩, Instr.pwrNap, 1, .inl ⟨rfl, rfl⟩, calm_of (by decide +kernel), letIn_of (by decide +kernel), by decide +kernel⟩,
    ⟨live, ⟨2, 1, false, false, 7⟩, Instr.pwrNap, 1, .inl ⟨rfl, rfl⟩, calm_of (by decide +kernel), letIn_of (by decide +kernel), by decide +kernel⟩,
    ⟨w240, ⟨1, 0, true, true, 0⟩, Instr.pwrNap, 1, .inl ⟨rfl, rfl⟩, calm_of (by decide +kernel), letIn_of (by decide +kernel), by decide +kernel⟩,
    ⟨w241, ⟨1, 0, true, true, 0⟩, Instr.pwrNap, 1, .inl ⟨rfl, rfl⟩, calm_of (by decide +kernel), letIn_of (by decide +kernel), by decide +kernel⟩,
    ⟨w242, calm_of (by decide +kernel), by decide +kernel, by decide +kernel, by decide +kernel, by decide +kernel, fun _ => rfl⟩,
    ⟨live, calm_of (by decide +kernel), by decide +kernel⟩,
    ⟨0, live, by decide +kernel, calm_of (by decide +kernel), by decide +kernel⟩,
    ⟨0xF, w243, by decide +kernel, calm_of (by decide +kernel), by decide +kernel⟩,
    ⟨0, w244, by decide +kernel, calm_of (by decide +kernel), by decide +kernel⟩⟩

/-- States and operands that meet the hypotheses of PowerChanges, clause by clause, part 2. -/
theorem test_meets_PowerChanges_more :
    (∃ (d : BitVec 5) (s : State), d.toNat < 24 ∧
        s.Calm ∧
        s.portUp = true ∧
        s.np.pswEn.getLsbD d.toNat = false ∧
        s.np.state = PwrState.entering ∧
        s.np.saved = true ∧
        s.np.target = 2 ∧
        setBit s.np.pswGood d.toNat false &&& 8978431 = 0 ∧
        s.np.pswEn ≠ 0) ∧
    (∃ (d : BitVec 5) (s : State), d.toNat < 24 ∧
        s.Calm ∧
        s.portUp = true ∧
        s.np.pswEn.getLsbD d.toNat = false ∧
        s.np.state ≠ PwrState.entering ∧
        s.np.ungateDue.getLsbD d.toNat = false) ∧
    (∃ (d : BitVec 5) (s : State), d.toNat < 24 ∧
        s.Calm ∧
        s.portUp = true ∧
        s.np.pswEn.getLsbD d.toNat = false ∧
        s.np.state = PwrState.entering ∧
        s.np.saved = true ∧
        s.np.target = 1 ∧
        setBit s.np.pswGood d.toNat false &&& 8978431 = 0 ∧
        s.np.pswEn &&& 8978431 = 0 ∧
        s.np.wakeDue = none) ∧
    (∃ (s : State), s.Calm ∧
        s.portUp = true ∧
        s.np.alarmV = true ∧
        reached s.now s.np.fireAt = true ∧
        (s.np.state = PwrState.nap ∨ s.np.state = PwrState.sleep) ∧
        (s.np.target = 1 → ∀ (m : BitVec 2), (s.port m.toNat).state ≠ PortState.park)) ∧
    (∃ (s : State), s.Calm ∧
        s.portUp = true ∧
        (s.np.alarmV = false ∨ reached s.now s.np.fireAt = false)) ∧
    (∃ (s : State), s.Canonical ∧
        s.Calm ∧
        s.portUp = true ∧
        s.hp.untaken = [] ∧
        s.np.wbuf = [] ∧
        s.np.state = PwrState.exiting ∧
        s.exitPowered = true ∧
        s.np.target = 1 ∧
        s.np.saveLost = [] ∧
        s.np.wbufLost = [] ∧
        s.st.storeOk = BitVec.allOnes 16 ∧
        s.cu.ports = [] ∧
        s.wf.level = 0 ∧
        s.np.latch = 0 ∧
        s.mi.channels = []) ∧
    (∃ (s : State), s.Canonical ∧
        s.Calm ∧
        s.portUp = true ∧
        s.hp.untaken = [] ∧
        s.np.wbuf = [] ∧
        (s.np.state ≠ PwrState.exiting ∨ s.exitPowered = false)) ∧
    (∃ (k : BitVec 4) (s : State), s.Calm ∧
        s.live = true ∧
        s.mayGate k.toNat = true ∧
        s.np.pswGood.getLsbD k.toNat = true ∧
        (∀ (j : Nat), (s.queue j).tasks = [])) ∧
    (∃ (k : BitVec 4) (s : State), s.Calm ∧
        s.live = true ∧
        (s.np.trimEn = false ∨ s.clusterIdle k.toNat = false)) ∧
    (∃ (v : Word) (s : State) (h : HpAttr), s.Calm ∧
        s.LetIn h ∧
        s.np.gated = []) ∧
    (∃ (s : State) (h : HpAttr), s.Calm ∧
        s.LetIn h ∧
        True) :=
  ⟨⟨0, w245, by decide +kernel, calm_of (by decide +kernel), by decide +kernel⟩,
    ⟨0x10, w246, by decide +kernel, calm_of (by decide +kernel), by decide +kernel⟩,
    ⟨0, w247, by decide +kernel, calm_of (by decide +kernel), by decide +kernel⟩,
    ⟨w248, calm_of (by decide +kernel), by decide +kernel⟩,
    ⟨live, calm_of (by decide +kernel), by decide +kernel⟩,
    ⟨w249, canonical_of (by decide +kernel), calm_of (by decide +kernel), by decide +kernel⟩,
    ⟨live, canonical_of (by decide +kernel), calm_of (by decide +kernel), by decide +kernel⟩,
    ⟨0xF, w250, calm_of (by decide +kernel), by decide +kernel, by decide +kernel, by decide +kernel, fun _ => rfl⟩,
    ⟨0, live, calm_of (by decide +kernel), by decide +kernel⟩,
    ⟨0, live, ⟨1, 0, true, true, 0⟩, calm_of (by decide +kernel), letIn_of (by decide +kernel), by decide +kernel⟩,
    ⟨live, ⟨1, 0, true, true, 0⟩, calm_of (by decide +kernel), letIn_of (by decide +kernel), trivial⟩⟩

/-- States and operands that meet the hypotheses of StartupAndZeroise, clause by clause, part 1. -/
theorem test_meets_StartupAndZeroise :
    (∃ (s : State), s.hp.untaken = [] ∧
        s.np.porst = false ∧
        s.np.porstDue = false ∧
        s.np.zHold = false ∧
        s.np.zRun = false) ∧
    (∃ (s : State), s.np.porst = true ∧
        s.np.zRun = false) ∧
    (∃ (s : State) (r : SelftestResult), s.Canonical ∧
        s.portUp = true ∧
        s.ts.phase = Phase.selftest ∧
        r.copies = 0 ∧
        r.replays = 0 ∧
        r.other = none ∧
        r.porters = 0) ∧
    (∃ (s : State) (r : SelftestResult), s.Canonical ∧
        s.portUp = true ∧
        s.ts.phase = Phase.selftest ∧
        r.other ≠ none) ∧
    (∃ (s : State) (r : SelftestResult), s.Canonical ∧
        s.portUp = true ∧
        s.ts.phase ≠ Phase.selftest) ∧
    (∃ (s : State) (seed : BitVec 128), s.portUp = true ∧
        s.ts.phase = Phase.rngWait ∧
        s.cf.ready = true ∧
        s.cf.fail = false ∧
        s.powered 16 = true ∧
        s.cf.kdrop = false) ∧
    (∃ (s : State) (seed : BitVec 128), s.portUp = true ∧
        s.powered 16 = true ∧
        s.cf.kreq = true ∧
        (s.ts.phase ≠ Phase.rngWait ∨ s.cf.kdrop = true)) ∧
    (∃ (s : State) (seed : BitVec 128), s.portUp = true ∧
        s.cf.kreq = false ∧
        (s.ts.phase ≠ Phase.rngWait ∨ s.cf.ready = false ∨ s.cf.fail = true)) ∧
    (∃ (s : State) (h : HpAttr), s.Calm ∧
        s.portUp = true ∧
        s.awake = true ∧
        s.portRoom h = true ∧
        s.ts.phase = Phase.rngWait) :=
  ⟨⟨w239, by decide +kernel⟩,
    ⟨live, by decide +kernel⟩,
    ⟨w251, ⟨0, 0, 0, none⟩, canonical_of (by decide +kernel), by decide +kernel⟩,
    ⟨w251, ⟨0, 0, 0, some (3, 1)⟩, canonical_of (by decide +kernel), by decide +kernel⟩,
    ⟨live, ⟨0, 0, 0, none⟩, canonical_of (by decide +kernel), by decide +kernel⟩,
    ⟨w252, 0, by decide +kernel⟩,
    ⟨w253, 0, by decide +kernel⟩,
    ⟨live, 0, by decide +kernel⟩,
    ⟨w254, ⟨1, 0, true, true, 0⟩, calm_of (by decide +kernel), by decide +kernel⟩⟩

/-- States and operands that meet the hypotheses of StartupAndZeroise, clause by clause, part 2. -/
theorem test_meets_StartupAndZeroise_more :
    (∃ (s : State) (h : HpAttr), s.Calm ∧
        s.portUp = true ∧
        s.awake = true ∧
        s.portRoom h = true ∧
        s.ts.phase ≠ Phase.rngWait) ∧
    (∃ (s : State), s.Canonical ∧
        s.Calm ∧
        s.portUp = true ∧
        s.ts.phase = Phase.seeding ∧
        s.gl.tbSeen = true ∧
        s.er.zeroised = false ∧
        s.lt.srcPend = [] ∧
        s.wf.level = 0 ∧
        s.np.latch = 0 ∧
        s.mi.channels = []) ∧
    (∃ (s : State), s.Canonical ∧
        s.Calm ∧
        s.portUp = true ∧
        (s.ts.phase ≠ Phase.seeding ∨ s.gl.tbSeen = false)) ∧
    (∃ (s : State), s.hp.untaken = [] ∧
        s.np.zIn = false ∧
        s.np.zRun = true) ∧
    (∃ (s : State), s.hp.untaken = [] ∧
        s.np.zIn = false ∧
        s.np.zRun = false ∧
        s.cu.ports = []) ∧
    (∃ (s : State), s.np.zRun = true ∧
        s.hp.untaken = [] ∧
        s.np.zInternal = false ∧
        s.np.porst = true ∧
        s.np.porstDue = false ∧
        s.np.zMaker = false ∧
        s.ts.maker = none) ∧
    (∃ (s : State), s.hp.untaken = [] ∧
        s.np.zRun = true ∧
        s.np.zMaker = true ∧
        s.np.porstDue = false) ∧
    (∃ (s : State), s.hp.untaken = [] ∧
        s.np.zIn = true ∧
        s.np.zHold = true ∧
        s.np.porst = true ∧
        s.ts.maker = none) ∧
    (∃ (s : State), s.hp.untaken = [] ∧
        s.np.zIn = true ∧
        s.np.zHold = false) :=
  ⟨⟨live, ⟨1, 0, true, true, 0⟩, calm_of (by decide +kernel), by decide +kernel⟩,
    ⟨w255, canonical_of (by decide +kernel), calm_of (by decide +kernel), by decide +kernel⟩,
    ⟨live, canonical_of (by decide +kernel), calm_of (by decide +kernel), by decide +kernel⟩,
    ⟨w256, by decide +kernel⟩,
    ⟨live, by decide +kernel⟩,
    ⟨w256, by decide +kernel⟩,
    ⟨w257, by decide +kernel⟩,
    ⟨w258, by decide +kernel⟩,
    ⟨w259, by decide +kernel⟩⟩

/-- States and operands that meet the hypotheses of TestCommands, clause by clause, part 1. -/
theorem test_meets_TestCommands :
    (∃ (s : State) (ir : Byte), s.np.zRun = false ∧
        s.hp.untaken = [] ∧
        s.hp.slots = [] ∧
        s.cu.ports = []) ∧
    (∃ (s : State) (ir : Byte), s.np.zRun = true ∧
        s.hp.untaken = []) ∧
    (∃ (s : State), s.np.porst = true ∧
        s.np.zRun = false ∧
        s.np.zHold = false) ∧
    (∃ (s : State), s.np.porst = false) ∧
    (∃ (n : BitVec 2) (v : Word) (s : State) (h : HpAttr), BitVec.getLsbD v 3 = false ∧
        (BitVec.getLsbD v 4 = true → BitVec.extractLsb' 0 2 v ≠ 0) ∧
        s.Calm ∧
        s.LetIn h ∧
        s.Canonical ∧
        (s.port n.toNat).state = PortState.off ∧
        s.domainOff (portDomain n.toNat) = false ∧
        s.cu.pair = PairState.off ∧
        BitVec.getLsbD v 42 = false) ∧
    (∃ (n : BitVec 2) (v : Word) (s : State) (h : HpAttr), BitVec.getLsbD v 42 = false ∧
        s.Calm ∧
        s.LetIn h ∧
        (s.port n.toNat).state ≠ PortState.off) ∧
    (∃ (n : BitVec 2) (v : Word) (s : State) (h : HpAttr), BitVec.getLsbD v 2 = false ∧
        s.Calm ∧
        s.LetIn h ∧
        s.Canonical ∧
        (s.port n.toNat).state = PortState.off ∧
        s.domainOff (portDomain n.toNat) = false ∧
        s.cu.pair = PairState.off ∧
        BitVec.getLsbD v 42 = false ∧
        (s.loopb n.toNat).respond = false) ∧
    (∃ (n : BitVec 2) (v : Word) (s : State) (h : HpAttr), s.Calm ∧
        s.LetIn h ∧
        s.looping n.toNat = true) ∧
    (∃ (n : BitVec 2) (v : Word) (s : State) (h : HpAttr), s.Calm ∧
        s.LetIn h ∧
        s.looping n.toNat = false) :=
  ⟨⟨live, 0, by decide +kernel⟩,
    ⟨w256, 0, by decide +kernel⟩,
    ⟨live, by decide +kernel⟩,
    ⟨w239, by decide +kernel⟩,
    ⟨0, 0, live, ⟨1, 0, true, true, 0⟩, by decide +kernel, by decide +kernel, calm_of (by decide +kernel), letIn_of (by decide +kernel), canonical_of (by decide +kernel), by decide +kernel⟩,
    ⟨0, 0, w187, ⟨1, 0, true, true, 0⟩, by decide +kernel, calm_of (by decide +kernel), letIn_of (by decide +kernel), by decide +kernel⟩,
    ⟨0, 0, live, ⟨1, 0, true, true, 0⟩, by decide +kernel, calm_of (by decide +kernel), letIn_of (by decide +kernel), canonical_of (by decide +kernel), by decide +kernel⟩,
    ⟨0, 0, w260, ⟨1, 0, true, true, 0⟩, calm_of (by decide +kernel), letIn_of (by decide +kernel), by decide +kernel⟩,
    ⟨0, 0, live, ⟨1, 0, true, true, 0⟩, calm_of (by decide +kernel), letIn_of (by decide +kernel), by decide +kernel⟩⟩

/-- States and operands that meet the hypotheses of TestCommands, clause by clause, part 2. -/
theorem test_meets_TestCommands_more :
    (∃ (n : BitVec 2) (k : BitVec 3) (blk : List Pam4) (s : State), k.toNat < 5 ∧
        (blk.length = 544 ∨ blk = []) ∧
        s.Calm ∧
        s.portUp = true ∧
        (s.loopb n.toNat).running = true ∧
        (s.loopb n.toNat).respond = false ∧
        (s.loopb n.toNat).pattern = true ∧
        2 ≤ (s.loopb n.toNat).depth.toNat ∧
        (s.loopb n.toNat).lanes.getLsbD k.toNat = true ∧
        (s.loopb n.toNat).flits = 0) ∧
    (∃ (n : BitVec 2) (k : BitVec 3) (blk : List Pam4) (s : State), k.toNat < 5 ∧
        (blk.length = 544 ∨ blk = []) ∧
        s.Calm ∧
        s.portUp = true ∧
        (s.port n.toNat).state = PortState.off ∧
        (s.loopb n.toNat).respond = true) ∧
    (∃ (n : BitVec 2) (k : BitVec 3) (blk : List Pam4) (s : State), k.toNat < 5 ∧
        (blk.length = 544 ∨ blk = []) ∧
        s.Calm ∧
        s.portUp = true ∧
        (s.loopb n.toNat).running = false ∧
        (s.loopb n.toNat).respond = false) ∧
    (∃ (k : BitVec 1) (v : Word) (s : State) (h : HpAttr), BitVec.getLsbD v 0 = true ∧
        s.Calm ∧
        s.LetIn h ∧
        s.Canonical ∧
        (s.dloop k.toNat).en = false ∧
        (List.all s.ts.dloops fun p => !p.snd.en) = true ∧
        s.rn.groups = [] ∧
        (s.target (BitVec.extractLsb' 1 8 v).toNat).enable = false ∧
        (s.target (BitVec.extractLsb' 1 8 v).toNat).held = [] ∧
        s.NoCandidate (BitVec.extractLsb' 1 8 v).toNat) ∧
    (∃ (k : BitVec 1) (v : Word) (s : State) (h : HpAttr), BitVec.getLsbD v 0 = false ∧
        s.Calm ∧
        s.LetIn h ∧
        (s.dloop k.toNat).en = false) ∧
    (∃ (k : BitVec 1) (v : Word) (s : State) (h : HpAttr), s.Canonical ∧
        s.Calm ∧
        s.LetIn h ∧
        (s.dloop k.toNat).en = true ∧
        (BitVec.getLsbD v 0 = true ∨ (s.dloop k.toNat).claimed ≠ none)) ∧
    (∃ (s : State) (k : BitVec 1) (e : Nat), s.Canonical ∧
        s.Calm ∧
        s.live = true ∧
        s.gb.enable = false ∧
        e < nEntries ∧
        (s.dloop k.toNat).en = true ∧
        (s.dloop k.toNat).closing = false ∧
        (s.dloop k.toNat).claimed = none ∧
        (s.target (s.dloop k.toNat).target.toNat).offered = some e ∧
        (s.target (s.dloop k.toNat).target.toNat).front = [e] ∧
        (s.target (s.dloop k.toNat).target.toNat).bands = [] ∧
        (s.entry e).state = EvState.offered ∧
        (s.side e).placed = some (s.dloop k.toNat).target ∧
        (s.side e).holder = none ∧
        (s.side e).room = none ∧
        s.busy e = false ∧
        16 * (s.dloop k.toNat).delay.toNat ≤ s.age (s.target (s.dloop k.toNat).target.toNat).offerAt) ∧
    (∃ (s : State) (k : BitVec 1) (h : HeldEv), s.Canonical ∧
        s.Calm ∧
        s.live = true ∧
        s.gb.enable = false ∧
        h.cand < nEntries ∧
        (s.dloop k.toNat).closing = false ∧
        (s.dloop k.toNat).claimed = some h.cand ∧
        s.NoCandidate (s.dloop k.toNat).target.toNat ∧
        (s.target (s.dloop k.toNat).target.toNat).held = [h] ∧
        (s.entry h.cand).state = EvState.claimed ∧
        (s.side h.cand).placed = none ∧
        (s.side h.cand).holder = some (s.dloop k.toNat).target ∧
        (s.side h.cand).room = none ∧
        s.busy h.cand = false ∧
        (∀ (m : BitVec 8), (∃ x, x ∈ (s.target m.toNat).held ∧ x.cand = h.cand) → m = (s.dloop k.toNat).target) ∧
        (isWired h.cand = false ∨ s.wf.enabled = false) ∧
        16 * (s.dloop k.toNat).hold.toNat ≤ s.age (s.dloop k.toNat).at_) ∧
    (∃ (k : BitVec 1) (s : State), s.Calm ∧
        s.live = true ∧
        (s.dloop k.toNat).en = false) :=
  ⟨⟨0, 1, [], w261, by decide +kernel, by decide +kernel, calm_of (by decide +kernel), by decide +kernel⟩,
    ⟨1, 0, [], w262, by decide +kernel, by decide +kernel, calm_of (by decide +kernel), by decide +kernel⟩,
    ⟨0, 0, [], live, by decide +kernel, by decide +kernel, calm_of (by decide +kernel), by decide +kernel⟩,
    ⟨0, 1, live, ⟨1, 0, true, true, 0⟩, by decide +kernel, calm_of (by decide +kernel), letIn_of (by decide +kernel), canonical_of (by decide +kernel), by decide +kernel, by decide +kernel, by decide +kernel, by decide +kernel, by decide +kernel, noCandidate_of (by decide +kernel)⟩,
    ⟨0, 0, live, ⟨1, 0, true, true, 0⟩, by decide +kernel, calm_of (by decide +kernel), letIn_of (by decide +kernel), by decide +kernel⟩,
    ⟨0, 0, w263, ⟨1, 0, true, true, 0⟩, canonical_of (by decide +kernel), calm_of (by decide +kernel), letIn_of (by decide +kernel), by decide +kernel⟩,
    ⟨w264, 0, 0x450, canonical_of (by decide +kernel), calm_of (by decide +kernel), by decide +kernel⟩,
    ⟨w265, 0, ⟨0x450, 3, 9, false⟩, canonical_of (by decide +kernel), calm_of (by decide +kernel), by decide +kernel, by decide +kernel, by decide +kernel, by decide +kernel, by decide +kernel, noCandidate_of (by decide +kernel), by decide +kernel⟩,
    ⟨0, live, calm_of (by decide +kernel), by decide +kernel⟩⟩

end Sys2Proof.Tests
end

section
/-! O9: the shifts and the rotation (06 R149, Table 06-8). The number arithmetic of Machine/Flags.lean is tied once to the words of
BitVec, the frame of an instruction of format FA is stated once, and the four instructions follow. -/
namespace Sys2Proof.Machine

/-! ### The frame of an instruction that writes Wd or Dd and the flags (06 R145, R147) -/

@[simp] theorem Run.setD_pc (x : Run) (f : LqFields) (v : Nat) : (x.setD f v).pc = x.pc := by
  unfold Run.setD; split <;> rfl

@[simp] theorem Run.counted_pc (x : Run) : x.counted.pc = x.pc := rfl

@[simp] theorem Run.setZnc_pc (x : Run) (w : Nat) (v : Alu) : (x.setZnc w v).pc = x.pc := rfl

/-- A result and its C as the machine computes them, in numbers, from a word and its C. -/
def aluOf {w : Nat} (v : BitVec w × Bool) : Alu := ⟨v.1.toNat, v.2⟩

/-- Z and N judged on a word's number are Z and N of the word. -/
theorem Run.setZnc_aluOf {w : Nat} (x : Run) (v : BitVec w × Bool) : x.setZnc w (aluOf v) = x.znc v.1 v.2 := by
  have hz : (aluOf v).res = 0 ↔ v.1 = 0 := by simp [aluOf, ← BitVec.toNat_inj]
  have hn : (aluOf v).res.testBit (w - 1) = v.1.msb := by rw [BitVec.msb_eq_getLsbD_last]; exact BitVec.testBit_toNat v.1
  simp only [Run.setZnc, Run.znc, hz, hn]
  rfl

/-- The operation g on numbers, which is how Machine/Flags.lean computes, gives what G gives on words, at every width. -/
def Computes (g : Run → Nat → Nat → Nat → Alu) (G : Run → AluFn) : Prop :=
  ∀ (x : Run) (w : Nat) (a b : BitVec w), g x w a.toNat b.toNat = aluOf (G x w a b)

/-- The result and flags that lqAlu writes are aluEff's: the operands read as numbers are those of opnds12 and opnds24. -/
theorem Computes.aluEff_eq {g : Run → Nat → Nat → Nat → Alu} {G : Run → AluFn} (hg : Computes g G) (x : Run) (f : LqFields) :
    (x.setD f (g x f.width (x.opA f) (x.opB f)).res).setZnc f.width (g x f.width (x.opA f) (x.opB f)) = aluEff G f x := by
  by_cases hx : f.x = true
  · have hA : x.opA f = (x.opnds24 f).1.toNat := by simp [Run.opA, Run.opnds24, hx]
    have hB : x.opB f = (x.opnds24 f).2.toNat := by
      by_cases hi : f.i = true
      · have := f.k.isLt
        simp [Run.opB, Run.opnds24, hi]; omega
      · simp [Run.opB, Run.opnds24, hx, hi]
    have hw : f.width = 24 := if_pos hx
    simp only [hA, hB, hw, hg x 24, Run.setZnc_aluOf, aluEff, hx, if_true]
    simp [Run.setD, hx, aluOf]
  · have hA : x.opA f = (x.opnds12 f).1.toNat := by simp [Run.opA, Run.opnds12, hx]
    have hB : x.opB f = (x.opnds12 f).2.toNat := by
      by_cases hi : f.i = true <;> simp [Run.opB, Run.opnds12, hx, hi]
    have hw : f.width = 12 := if_neg hx
    simp only [hA, hB, hw, hg x 12, Run.setZnc_aluOf, aluEff, hx]
    simp [Run.setD, hx, aluOf]

/-- An instruction of format FA completes with the effect of the word operation that its number operation computes. -/
theorem lqDoes_of_computes {op : Nat} {ins : RunRef → LqFields → Instr} {g : Run → Nat → Nat → Nat → Alu} {G : Run → AluFn}
    (hexec : ∀ r f s, exec (ins r f) s = .next (s.lqAlu (ins r f) r op f g)) (hg : Computes g G) :
    LqDoes op ins LqFields.okFA (aluEff G) := by
  intro s r x f hf hok hpc
  rw [hexec, State.lqAlu, hf.lq_cont hok rfl (by simpa using hpc), hg.aluEff_eq]

/-! ### The operations on words (06 Table 06-8) -/

variable {w : Nat}

theorem aluShl_toNat (a : BitVec w) (n : Nat) :
    aluShl w a.toNat n = aluOf (a <<< n, n ≠ 0 && n ≤ w && a.getLsbD (w - n)) := by
  obtain rfl | hn := Decidable.em (n = 0)
  · simp [aluShl, aluOf]
  · by_cases hw : n ≤ w
    · simp [aluShl, aluOf, hn, hw, BitVec.testBit_toNat, Nat.shiftLeft_eq]
    · simp [aluShl, aluOf, hn, hw, BitVec.shiftLeft_eq_zero (Nat.le_of_not_le hw)]

theorem aluShr_toNat (a : BitVec w) (n : Nat) : aluShr w a.toNat n = aluOf (a >>> n, n ≠ 0 && a.getLsbD (n - 1)) := by
  obtain rfl | hn := Decidable.em (n = 0)
  · simp [aluShr, aluOf]
  · by_cases hw : n ≤ w
    · simp [aluShr, aluOf, hn, hw, BitVec.testBit_toNat, Nat.shiftRight_eq_div_pow]
    · have hout : w ≤ n - 1 := by omega
      simp [aluShr, aluOf, hn, hw, BitVec.ushiftRight_eq_zero (Nat.le_of_not_le hw), BitVec.getLsbD_of_ge a _ hout]

/-- The shifted complement of a negative word, complemented again: the quotient with ones above it. -/
theorem toNat_sshiftRight_of_msb_le {a : BitVec w} {n : Nat} (hm : a.msb = true) (hn : n ≤ w) :
    (a.sshiftRight n).toNat = a.toNat / 2 ^ n + (2 ^ w - 2 ^ (w - n)) := by
  have hpow : 2 ^ w = 2 ^ n * 2 ^ (w - n) := by rw [← Nat.pow_add, Nat.add_sub_cancel' hn]
  have hlt : a.toNat < 2 ^ n * 2 ^ (w - n) := hpow ▸ a.isLt
  have hq : a.toNat / 2 ^ n < 2 ^ (w - n) := Nat.div_lt_of_lt_mul hlt
  have hle : 2 ^ (w - n) ≤ 2 ^ w := Nat.pow_le_pow_right Nat.two_pos (Nat.sub_le w n)
  have hdiv : (2 ^ w - 1 - a.toNat) / 2 ^ n = 2 ^ (w - n) - (a.toNat / 2 ^ n + 1) := by
    rw [Nat.sub_sub, Nat.add_comm 1, hpow, Nat.mul_sub_div _ _ _ hlt]
  rw [BitVec.toNat_sshiftRight_of_msb_true hm, Nat.shiftRight_eq_div_pow, hdiv]
  generalize a.toNat / 2 ^ n = q at *
  omega

/-- Beyond the width an arithmetic shift leaves the copies of the sign that a shift by the width leaves. -/
theorem sshiftRight_of_width_le (a : BitVec w) {n : Nat} (hn : w ≤ n) : a.sshiftRight n = a.sshiftRight w := by
  cases hm : a.msb with
  | false => simp [BitVec.sshiftRight_eq_of_msb_false hm, BitVec.ushiftRight_eq_zero, hn]
  | true => simp [BitVec.sshiftRight_eq_of_msb_true hm, BitVec.ushiftRight_eq_zero, hn]

/-- Within the width an arithmetic shift is the quotient and n copies of the sign above it. -/
theorem toNat_sshiftRight_le (a : BitVec w) {n : Nat} (hn : n ≤ w) :
    (a.sshiftRight n).toNat = a.toNat / 2 ^ n + if a.msb = true then 2 ^ w - 2 ^ (w - n) else 0 := by
  cases hm : a.msb with
  | false => simp [BitVec.toNat_sshiftRight, hm, Nat.shiftRight_eq_div_pow]
  | true => simpa using toNat_sshiftRight_of_msb_le hm hn

theorem aluSar_toNat (a : BitVec w) (n : Nat) :
    aluSar w a.toNat n = aluOf (a.sshiftRight n, n ≠ 0 && (if n ≤ w then a.getLsbD (n - 1) else a.msb)) := by
  have htop : a.toNat.testBit (w - 1) = a.msb := by rw [BitVec.testBit_toNat, BitVec.msb_eq_getLsbD_last]
  obtain rfl | hn := Decidable.em (n = 0)
  · simp [aluSar, aluOf]
  · by_cases hw : n ≤ w
    · simp [aluSar, aluOf, hn, hw, htop, toNat_sshiftRight_le a hw, BitVec.testBit_toNat]
    · have hfill := toNat_sshiftRight_le a (Nat.le_refl w)
      rw [Nat.div_eq_of_lt a.isLt, Nat.zero_add] at hfill
      simp [aluSar, aluOf, hn, hw, htop, sshiftRight_of_width_le a (Nat.le_of_not_le hw), hfill]

/-- The n bits that leave at the top come in at the bottom, where the shift by n has left zeros. -/
theorem toNat_rotateLeft_add (a : BitVec w) {n : Nat} (hn : n < w) :
    (a.rotateLeft n).toNat = a.toNat * 2 ^ n % 2 ^ w + a.toNat / 2 ^ (w - n) := by
  have hpow : 2 ^ w = 2 ^ (w - n) * 2 ^ n := by rw [← Nat.pow_add, Nat.sub_add_cancel (Nat.le_of_lt hn)]
  have hout : a.toNat / 2 ^ (w - n) < 2 ^ n := Nat.div_lt_of_lt_mul (hpow ▸ a.isLt)
  have hrest : a.toNat * 2 ^ n % 2 ^ w = (a.toNat % 2 ^ (w - n)) <<< n := by
    rw [hpow, Nat.mul_mod_mul_right, Nat.shiftLeft_eq]
  rw [BitVec.toNat_rotateLeft, Nat.mod_eq_of_lt hn, Nat.shiftLeft_eq, Nat.shiftRight_eq_div_pow, hrest,
    Nat.shiftLeft_add_eq_or_of_lt hout]

theorem aluRol_toNat (a : BitVec w) (s : Nat) :
    aluRol w a.toNat s = aluOf (a.rotateLeft (s % w), s % w ≠ 0 && (a.rotateLeft (s % w)).getLsbD 0) := by
  obtain hn | hn := Decidable.em (s % w = 0)
  · have hid : a.rotateLeft 0 = a := by
      simp [BitVec.rotateLeft, BitVec.rotateLeftAux, BitVec.ushiftRight_eq_zero]
    simp [aluRol, aluOf, hn, hid]
  · obtain rfl | hw := Nat.eq_zero_or_pos w
    · simp [aluRol, aluOf, BitVec.eq_nil a]
    · have hr := toNat_rotateLeft_add a (Nat.mod_lt s hw)
      simp only [aluRol, aluOf, hn, if_false, ← hr, BitVec.testBit_toNat]
      simp [hn]

end Sys2Proof.Machine

open Sys2Proof Sys2Proof.Machine

/-- Settles O9: each of the four computes its word operation of Table 06-8 with the amount b[4:0], within the frame of format FA. -/
theorem lequinShifts : Obligations.LequinShifts :=
  ⟨lqDoes_of_computes (fun _ _ _ => rfl) fun _ _ a b => aluShl_toNat a (shiftOf b.toNat),
    lqDoes_of_computes (fun _ _ _ => rfl) fun _ _ a b => aluShr_toNat a (shiftOf b.toNat),
    lqDoes_of_computes (fun _ _ _ => rfl) fun _ _ a b => aluSar_toNat a (shiftOf b.toNat),
    lqDoes_of_computes (fun _ _ _ => rfl) fun _ _ a b => aluRol_toNat a (shiftOf b.toNat)⟩

end

section
/-! What O11, O23 and O25 share: the frame of a Lequin instruction that goes on to the next address (06 R145). -/
namespace Sys2Proof.Machine

variable {s t : State} {r : RunRef} {x z : Run} {op : Nat} {f : LqFields} {i : Instr} {good : Run → Bool} {body : Run → LqOut}

/-- An instruction of opcode op that completes at its address goes on past it. -/
theorem State.Fetches.exec_past (hf : s.Fetches r x op f) (hi : exec i s = .next (s.lq i r op f good body)) (hg : good x = true)
    (hb : body x.counted = .cont z t) (hz : z.pc ≠ 0xFFF) : exec i s = .next (t.setRun r (some z.past)) := by
  rw [hi, hf.lq_cont hg hb hz]

end Sys2Proof.Machine
end

section
/-! O11: RDS of the run's own special registers, TIME and NOP (06 R142, 07 R192, R195). -/
namespace Sys2Proof.Machine

variable {s : State} {r : RunRef} {x : Run} {f : LqFields}

/-- FLAGS bit by bit (06 Table 06-2). -/
theorem Run.flags_eq (x : Run) :
    x.flags = BitVec.ofNat 12 (x.z.toNat + 2 * x.c.toNat + 4 * x.n.toNat + 8 * x.f.toNat + 16 * x.rndv.toNat + 32 * x.serial.toNat +
      64 * x.rerun.toNat) := by
  have hbit (b : Bool) : b2n b % 2 = b.toNat := by cases b <;> rfl
  simp only [Run.flags, pack, Nat.pow_one, hbit]
  congr 1
  omega

/-- An RDS of one of the registers 0x000 to 0x006, none of which is a record register, gives its content to Wd. -/
theorem State.Fetches.exec_rds (hf : s.Fetches r x 0x14 f) (hok : f.only { d := true, k := true } = true) (hpc : x.pc ≠ 0xFFF)
    {k : Nat} (hk : f.k = BitVec.ofNat 12 k) (hle : k ≤ 6) {v : BitVec 12} (hv : s.special r x.counted k = v) :
    exec (.rds r f) s = .next (s.setRun r (some (x.counted.setW f.d.toNat v).past)) := by
  have hnum : f.k.toNat = k := by rw [hk, BitVec.toNat_ofNat, Nat.mod_eq_of_lt (by omega)]
  have hassigned : srAssigned f.k.toNat = true := by simp [srAssigned, hnum, hle]
  have hrecord : ¬ 0x10 ≤ k := by omega
  refine hf.exec_past rfl (by simp only [hok, hassigned, Bool.and_self]) ?_ hpc
  simp only [hnum, hv, hrecord, decide_false, Bool.false_and, Bool.false_eq_true, if_false]

/-- TIME writes the time base of the latest strobe. -/
theorem State.Fetches.exec_time (hf : s.Fetches r x 0x3C f) (hok : f.only { d := true } = true) (hd : f.d.toNat ≤ 12)
    (hpc : x.pc ≠ 0xFFF) : exec (.time r f) s = .next (s.setRun r (some (x.counted.setFour f.d.toNat s.now).past)) :=
  hf.exec_past rfl (by simp [LqFields.okTime, hok, hd]) rfl hpc

end Sys2Proof.Machine

open Sys2Proof Sys2Proof.Machine

/-- Settles O11: each special register is read by the one rule of RDS; TIME and NOP go on with the run that they say. -/
theorem lequinSpecialRegisters : Obligations.LequinSpecialRegisters := by
  refine ⟨fun s r x f hf hok hpc => ?_, fun s r x f hf hok hd hpc => ?_, fun s r x f hf hok hpc => hf.exec_past rfl hok rfl hpc⟩
  · have rds {k : Nat} (hk : f.k = BitVec.ofNat 12 k) := hf.exec_rds hok hpc hk
    exact ⟨fun h => rds h (by decide) x.counted.flags_eq, fun h => rds h (by decide) rfl, fun h => rds h (by decide) rfl,
      fun h => rds h (by decide) rfl, fun h => rds h (by decide) rfl, fun h => rds h (by decide) rfl⟩
  · exact ⟨_, hf.exec_time hok hd hpc, rfl, rfl⟩

end

section
/-! O23: JADD and KEYARM that take a follow-on, KEYCHK (04 Table 04-2, 07 R179, R180, R182). -/
namespace Sys2Proof.Machine

variable {s t t' : State} {r : RunRef} {x y y' : Run} {op : Nat} {ok : LqFields → Bool} {f : LqFields} {c : Nat}
  {it fo : ReadItem}

/-- A read changes no more of the run than its read set (05 R114). -/
theorem State.Reads.run_eq {i : Item} (h : s.Reads r x i y t it) : ∃ l, y = { x with reads := l } := by
  unfold State.Reads State.readItem at h
  split at h
  · cases h; exact ⟨_, rfl⟩
  · split at h
    · cases h
    · split at h
      · cases h
      · split at h
        · cases h
        · cases h; exact ⟨_, rfl⟩

/-- An operation that the context allows is staged, under views of the run's read set alone (07 R165). -/
theorem stageCtx_some (hroom : y.effects.length < 16) (o : CtxOut) (follow : Option Nat) (pay : Option (BitVec 36)) (e : Effect) :
    ∃ l, stageCtx y t c (some o) follow pay e = .cont { y with reads := l, effects := y.effects ++ [e], f := false } t := by
  have staged (l : List ReadItem) := accept_room (x := { y with reads := l }) hroom t e
  cases follow with
  | none => exact ⟨_, staged _⟩
  | some n =>
    cases hv : y.view (.entry n) with
    | none => exact ⟨_, by simp only [stageCtx, hv]; exact staged _⟩
    | some j => exact ⟨_, by simp only [stageCtx, hv]; exact staged _⟩

/-- An instruction whose body stages an operation that the context allows is accepted. -/
theorem State.Fetches.accepts_stageCtx (hf : s.Fetches r x op f) {good : Run → Bool} (hg : good x = true) {i : Instr}
    {body : Run → LqOut} (hi : exec i s = .next (s.lq i r op f good body)) {o : Option CtxOut} {follow : Option Nat}
    {pay : Option (BitVec 36)} {e : Effect} (hb : body x.counted = stageCtx y t c o follow pay e) {out : CtxOut} (ho : o = some out)
    (hroom : y.effects.length < 16) (hpc : y.pc ≠ 0xFFF) : Accepts i s r y t e := by
  subst ho
  obtain ⟨l, hl⟩ := stageCtx_some hroom out follow pay e
  exact ⟨_, hf.exec_past hi hg (hb.trans hl) hpc, rfl⟩

/-- JADD opens a FREE context under its IDLE follow-on, which it holds (04 Table 04-2). -/
theorem Ctx.jadd_free_idle {v : Ctx} (hv : v.state = .free) {st : EvState} (hst : st = .idle) {n : BitVec 12} (hn : n ≠ 0)
    (e : Nat) :
    v.jadd n (some e) st = some
      ⟨{ v with
        state := .opened, count := n, epoch := v.epoch + 1, follow := BitVec.ofNat 17 e, folv := true }, .gate .heldJoin⟩ := by
  simp only [Ctx.jadd, hv, hst, hn, if_false, if_true]

/-- KEYARM opens and arms a FREE context under its IDLE follow-on, which it holds (04 Table 04-2). -/
theorem Ctx.keyarm_free_idle {v : Ctx} (hv : v.state = .free) {st : EvState} (hst : st = .idle) (w : BitVec 2) (e : Nat) :
    v.keyarm w (some e) st = some
      ⟨{ v with
        state := .opened, count := 0, epoch := v.epoch + 1, armed := true, winsel := w, follow := BitVec.ofNat 17 e,
        folv := true }, .gate .heldTwokey⟩ := by
  simp only [Ctx.keyarm, hv, hst, if_true]

/-- An instruction on context Wa goes on with its view. -/
theorem State.OnCtx.withCtx (h : s.OnCtx r x op ok f c y t it) (k : Nat → Run → State → Ctx → LqOut) :
    withCtx r f x.counted s k = k c y t it.ctx := by
  obtain ⟨-, -, -, rfl, hread, -⟩ := h
  exact hread.withItem s _

/-- One that names follow-on e by Dc, and reads it, goes on with its state. -/
theorem State.Reads.withNamed {e : Nat} (hr : t.Reads r y (.entry e) y' t' fo) (hx : f.x = true) (hdn : (y.dn f.c.toNat).toNat = e)
    (he : e < nEntries) (k : Run → State → Option Nat → EvState → LqOut) :
    withNamed r f s y t k = k y' t' (some e) fo.entry.state := by
  rw [Machine.withNamed, hx, Bool.not_true, if_neg Bool.false_ne_true, hdn, if_neg (Nat.not_le.2 he), hr.withItem]

/-- JADD and KEYARM go on with the views of their context and of the follow-on that they name. -/
theorem State.OnCtx.withFollowOn (h : s.OnCtx r x op ok f c y t it) (hx : f.x = true) (he : (x.dn f.c.toNat).toNat < nEntries)
    (hr : t.Reads r y (.entry (x.dn f.c.toNat).toNat) y' t' fo)
    (k : Nat → Ctx → Run → State → Option Nat → EvState → LqOut) :
    (if x.counted.noEvent f then refuse x.counted s
      else Machine.withCtx r f x.counted s fun c y t v => withNamed r f s y t (k c v)) =
      k c it.ctx y' t' (some (x.dn f.c.toNat).toNat) fo.entry.state := by
  have hevent : x.counted.noEvent f = false := by
    rw [Run.noEvent, hx, Bool.true_and]; exact decide_eq_false (Nat.not_le.2 he)
  have hdn : y.dn f.c.toNat = x.dn f.c.toNat := by
    obtain ⟨l, rfl⟩ := h.reads.run_eq; rfl
  rw [hevent, if_neg Bool.false_ne_true, h.withCtx, hr.withNamed hx (congrArg _ hdn) he]

/-- After both reads the run is still at the address of its instruction, with the registers it had. -/
theorem State.OnCtx.run_eq (h : s.OnCtx r x op ok f c y t it) {i : Item} (hr : t.Reads r y i y' t' fo) :
    ∃ l, y' = { x.counted with reads := l } := by
  obtain ⟨l, rfl⟩ := h.reads.run_eq
  obtain ⟨l', rfl⟩ := hr.run_eq
  exact ⟨l', rfl⟩

/-- KEYCHK judges the context's staged view and stages nothing (07 R180). -/
theorem State.Fetches.exec_keychk (hf : s.Fetches r x 0x2F f) (hok : LqFields.okKeychk f = true) (hpc : x.pc ≠ 0xFFF)
    (hr : s.Reads r x.counted (.ctx (x.w f.a.toNat).toNat) y t it) :
    exec (.keychk r f) s = .next (t.setRun r
      (some { y.past with z := it.ctx.state = .opened && it.ctx.expired && it.ctx.epoch = x.w f.b.toNat })) := by
  obtain ⟨l, rfl⟩ := hr.run_eq
  exact hf.exec_past (z := { x.counted with
    reads := l, z := it.ctx.state = .opened && it.ctx.expired && it.ctx.epoch = x.w f.b.toNat }) rfl hok (hr.withItem s _) hpc

end Sys2Proof.Machine

open Sys2Proof Sys2Proof.Machine

/-- Settles O23: both reads give their item, a FREE context with an IDLE follow-on allows the operation, and it is staged. -/
theorem lequinFollowOns : Obligations.LequinFollowOns := by
  refine ⟨?_, ?_, fun s t r x y f it hf hok hpc hr => hf.exec_keychk hok hpc hr⟩
  · intro s t t' r x y y' f c it fo h hx he hr hroom hfree hidle n e hn
    obtain ⟨l, rfl⟩ := h.run_eq hr
    exact h.fetch.accepts_stageCtx h.ok rfl (h.withFollowOn hx he hr _) (Ctx.jadd_free_idle hfree hidle hn e) hroom h.pc
  · intro s t t' r x y y' f c it fo h hx he hr hroom hfree hidle e
    obtain ⟨l, rfl⟩ := h.run_eq hr
    exact h.fetch.accepts_stageCtx h.ok rfl (h.withFollowOn hx he hr _) (Ctx.keyarm_free_idle hfree hidle _ e) hroom h.pc

end

section
/-! O25: HINT, RETRACT, STEAL, SYNCGEN and GENACK (03 R76, 07 R187, R191, R193, R194). -/
namespace Sys2Proof.Machine

variable {s : State} {r : RunRef} {x : Run} {f : LqFields}

/-- Setting the hint changes the run's Porter alone; it is this run context's (03 R76). -/
theorem State.setHint_eq (h : Option (BitVec 8)) :
    s.setHint r h = s.modPorter r.cluster.toNat r.porter.toNat fun p => { p with hint := h.map fun t => (t, r.ctx) } := rfl

/-- HINT sets the hint to the target that Wa or K names; a register value above 255 names none and clears it (07 R187). -/
theorem State.Fetches.exec_hint (hf : s.Fetches r x 0x31 f) (hok : f.okAorK 255 = true) (hpc : x.pc ≠ 0xFFF) :
    exec (.hint r f) s = .next ((s.modPorter r.cluster.toNat r.porter.toNat fun p =>
      { p with hint := if (x.waOrK f).toNat ≤ 255 then some ((x.waOrK f).extractLsb' 0 8, r.ctx) else none }).setRun r
        (some x.counted.past)) := by
  refine (hf.exec_past (z := x.counted) rfl hok rfl hpc).trans ?_
  rw [State.setHint_eq, apply_ite (Option.map _)]
  rfl

/-- RETRACT clears the hint (07 R187). -/
theorem State.Fetches.exec_retract (hf : s.Fetches r x 0x32 f) (hok : f.okFN = true) (hpc : x.pc ≠ 0xFFF) :
    exec (.retract r f) s = .next ((s.modPorter r.cluster.toNat r.porter.toNat fun p => { p with hint := none }).setRun r
      (some x.counted.past)) :=
  hf.exec_past rfl hok rfl hpc

/-- STEAL notes the event that Da names, one above 0x1_FFFF being none (07 R166, R191). -/
theorem State.Fetches.exec_steal (hf : s.Fetches r x 0x3B f) (hok : f.okPairA = true) (hpc : x.pc ≠ 0xFFF) :
    exec (.steal r f) s = .next (s.setRun r (some { x.counted.past with steal := x.eventA f })) :=
  hf.exec_past (z := { x.counted with steal := x.eventA f }) rfl hok rfl hpc

/-- A current cached descriptor is kept (07 R193). -/
theorem State.reloadCache_of_current (h : s.cacheCurrent x = true) : s.reloadCache x = x := by rw [State.reloadCache, if_pos h]

/-- An older one is reloaded. -/
theorem State.reloadCache_of_older (h : s.cacheCurrent x = false) :
    s.reloadCache x = { x with cache := s.descriptor x.fn.toNat, cacheGen := some (s.fn x.fn.toNat).gen } := by
  rw [State.reloadCache, h, if_neg Bool.false_ne_true]

theorem State.reloadCache_pc : (s.reloadCache x).pc = x.pc := by
  unfold State.reloadCache; split <;> rfl

theorem State.reloadCache_pc_ne {a : BitVec 12} (h : x.pc ≠ a) : (s.reloadCache x).pc ≠ a := by rwa [State.reloadCache_pc]

/-- SYNCGEN of a function in service brings the cached descriptor up to date (07 R193). -/
theorem State.Fetches.exec_syncgen (hf : s.Fetches r x 0x3D f) (hok : f.okFN = true) (hpc : x.pc ≠ 0xFFF)
    (hin : (s.fn x.fn.toNat).state = .inService) :
    exec (.syncgen r f) s = .next (s.setRun r (some (s.reloadCache x.counted).past)) :=
  hf.exec_past rfl hok (if_pos hin) (State.reloadCache_pc_ne hpc)

/-- GENACK does so in every state of the function, and Z tells whether it was (07 R194). -/
theorem State.Fetches.exec_genack (hf : s.Fetches r x 0x3E f) (hok : f.okFN = true) (hpc : x.pc ≠ 0xFFF) :
    exec (.genack r f) s = .next (s.setRun r (some { (s.reloadCache x.counted).past with z := s.cacheCurrent x.counted })) :=
  hf.exec_past (z := { s.reloadCache x.counted with z := s.cacheCurrent x.counted }) rfl hok rfl
    (State.reloadCache_pc_ne hpc)

end Sys2Proof.Machine

open Sys2Proof Sys2Proof.Machine

/-- Settles O25: each of the five goes on with the change of its Porter's hint or of its run that its rule says. -/
theorem lequinHintsAndGenerations : Obligations.LequinHintsAndGenerations := by
  refine ⟨fun s r x f hf hok hpc => hf.exec_hint hok hpc, fun s r x f hf hok hpc => hf.exec_retract hok hpc,
    fun s r x f hf hok hpc => hf.exec_steal hok hpc, fun s r x f hf hok hpc hin => ?_, fun s r x f hf hok hpc => ?_⟩
  · intro g
    by_cases hgen : x.cacheGen = some g
    · have hcur : s.cacheCurrent x.counted = true := decide_eq_true hgen
      rw [hf.exec_syncgen hok hpc hin, State.reloadCache_of_current hcur, if_pos hgen]
    · have hold : s.cacheCurrent x.counted = false := decide_eq_false hgen
      rw [hf.exec_syncgen hok hpc hin, State.reloadCache_of_older hold, if_neg hgen]
      rfl
  · intro g
    by_cases hgen : x.cacheGen = some g
    · have hcur : s.cacheCurrent x.counted = true := decide_eq_true hgen
      rw [hf.exec_genack hok hpc, State.reloadCache_of_current hcur, hcur, if_pos hgen]
    · have hold : s.cacheCurrent x.counted = false := decide_eq_false hgen
      rw [hf.exec_genack hok hpc, State.reloadCache_of_older hold, hold, if_neg hgen]
      rfl

end

section
/-! O50: the Tollgate (10 R237 to R249). The rows of Table 10-1, then the writes of the Tollgate's window, which share one frame on the
keeper path and one violation on every other, then the end of the region check. -/
namespace Sys2Proof.Machine

variable {s : State} {h : HpAttr} {c : Instr}

/-! ### The rows of Table 10-1 -/

/-- Row 2: beyond the aperture. -/
theorem State.judge_of_beyond {q : HpReq} (ho : 0x6010000 ≤ q.addr.toNat) : s.judge q = .deny 2 := if_pos ho

/-- Row 3: the keeper window. -/
theorem State.judge_of_window {q : HpReq} (hlo : 0x10000 ≤ q.addr.toNat) (hhi : q.addr.toNat < 0x20000) :
    s.judge q = if keeper q.attr then .pass else .deny 3 := by
  have hin : ¬ 0x6010000 ≤ q.addr.toNat := by omega
  simp only [State.judge, offsetOf, hin, hlo, hhi, if_false, decide_true, Bool.and_self, if_true]

/-- An offset outside the keeper window. -/
theorem outside_window {o : Nat} (h : o < 0x10000 ∨ 0x20000 ≤ o) : (decide (0x10000 ≤ o) && decide (o < 0x20000)) = false := by
  rw [← Bool.decide_and]
  exact decide_eq_false (by omega)

/-- Row 4: the gate is not OPEN. -/
theorem State.judge_of_shut {q : HpReq} (hend : q.addr.toNat < 0x6010000)
    (hout : q.addr.toNat < 0x10000 ∨ 0x20000 ≤ q.addr.toNat) (hg : s.tg.gate ≠ .opened) : s.judge q = .stall := by
  unfold State.judge offsetOf
  simp only [Nat.not_le.2 hend, outside_window hout, hg, ne_eq, not_false_eq_true, if_true, if_false,
    Bool.false_eq_true]

/-- Row 5: a function page. -/
theorem State.judge_of_page {q : HpReq} (hg : s.tg.gate = .opened) (hlo : 0x4000000 ≤ q.addr.toNat)
    (hend : q.addr.toNat < 0x6010000) :
    s.judge q = if q.attr.fn.toNat = (q.addr.toNat - 0x4000000) / 0x10000 ∨ privPf q.attr then .pass else .deny 4 := by
  have hout : q.addr.toNat < 0x10000 ∨ 0x20000 ≤ q.addr.toNat := by omega
  have hpage : pageOf q.addr.toNat = some ((q.addr.toNat - 0x4000000) / 0x10000, q.addr.toNat % 0x10000) := by
    simp [pageOf, hlo, hend]
  unfold State.judge offsetOf
  simp only [Nat.not_le.2 hend, outside_window hout, hg, hpage, ne_eq, not_true_eq_false, if_false,
    Bool.false_eq_true, Bool.or_eq_true, decide_eq_true_eq]

/-- No function page lies below the pages' base (17 R359). -/
theorem pageOf_of_low {o : Nat} (h : o < 0x4000000) : pageOf o = none := by simp [pageOf, Nat.not_le.2 h]

/-- Row 6: the first region that covers the access decides. -/
theorem State.judge_of_region {q : HpReq} {l l' : Tbl Region} {n : Nat} {r : Region} (hg : s.tg.gate = .opened)
    (hlow : q.addr.toNat < 0x4000000) (hout : q.addr.toNat < 0x10000 ∨ 0x20000 ≤ q.addr.toNat)
    (hregions : s.tg.regions = l ++ (n, r) :: l') (hbefore : ∀ p ∈ l, p.2.covers q.addr.toNat = false)
    (hcovers : r.covers q.addr.toNat = true) : s.judge q = if privPf q.attr ∨ r.passes q then .pass else .deny 5 := by
  have hend : ¬ 0x6010000 ≤ q.addr.toNat := by omega
  have hfind : s.tg.regions.find? (fun p => p.2.covers q.addr.toNat) = some (n, r) :=
    List.find?_eq_some_iff_append.2 ⟨hcovers, l, l', hregions, fun p hp => by rw [hbefore p hp]; rfl⟩
  unfold State.judge offsetOf
  simp only [hend, outside_window hout, hg, pageOf_of_low hlow, hfind, ne_eq, not_true_eq_false, if_false,
    Bool.false_eq_true, Bool.or_eq_true]

/-- Row 7: no region covers the access. -/
theorem State.judge_of_no_region {q : HpReq} (hg : s.tg.gate = .opened) (hlow : q.addr.toNat < 0x4000000)
    (hout : q.addr.toNat < 0x10000 ∨ 0x20000 ≤ q.addr.toNat) (hnone : ∀ p ∈ s.tg.regions, p.2.covers q.addr.toNat = false) :
    s.judge q = if privPf q.attr then .pass else .deny 6 := by
  have hend : ¬ 0x6010000 ≤ q.addr.toNat := by omega
  have hfind : s.tg.regions.find? (fun p => p.2.covers q.addr.toNat) = none :=
    List.find?_eq_none.2 fun p hp => by rw [hnone p hp]; exact Bool.false_ne_true
  unfold State.judge offsetOf
  simp only [hend, outside_window hout, hg, pageOf_of_low hlow, hfind, ne_eq, not_true_eq_false, if_false,
    Bool.false_eq_true]

/-! ### Taking the slot -/

@[simp] theorem State.seat_tg : (s.seat h).tg = s.tg := by rw [State.seat_eq]
@[simp] theorem State.seat_fm : (s.seat h).fm = s.fm := by rw [State.seat_eq]
@[simp] theorem State.seat_gb : (s.seat h).gb = s.gb := by rw [State.seat_eq]

/-- An access that is let in is itself one that the gate counts until it is answered (10 R244). -/
theorem State.LetIn.checkedCount_seat_ne_zero (hl : s.LetIn h) : (s.seat h).checkedCount ≠ 0 := by
  have hroom := hl.room
  suffices ∃ x ∈ (s.seat h).hp.slots, x.checked = true from Nat.ne_of_gt (List.countP_pos_iff.2 this)
  unfold State.seat State.takeSlot
  by_cases hs : s.hasSlot h = true
  · obtain ⟨x, hx, hid⟩ := List.any_eq_true.1 hs
    rw [if_pos hs]
    exact ⟨_, List.mem_map_of_mem hx, by simp [of_decide_eq_true hid]⟩
  · obtain ⟨n, hn⟩ := Option.isSome_iff_exists.1 ((Bool.or_eq_true _ _ ▸ hroom).resolve_left hs)
    rw [if_neg hs, hn]
    exact ⟨_, List.mem_append_right _ (List.mem_singleton_self _), rfl⟩

/-! ### Writes of the Tollgate's window (10 R237, Table 10-1 row 3) -/

/-- Command c is the host access h that writes one word of the Tollgate's window. -/
structure TollWrite (h : HpAttr) (c : Instr) : Prop where
  wf    : c.wf = true
  beats : rowBeats c = []
  exec  : ∀ s : State, s.mirrorOn = false → ∃ (off : Nat) (v : Word), exec c s = .next (tollRow c h off v s)

theorem tollWrite_close (h : HpAttr) : TollWrite h (.close h) := ⟨rfl, rfl, fun _ _ => ⟨_, _, rfl⟩⟩
theorem tollWrite_reopen (h : HpAttr) : TollWrite h (.reopen h) := ⟨rfl, rfl, fun _ _ => ⟨_, _, rfl⟩⟩
theorem tollWrite_region (h : HpAttr) (n : BitVec 7) (v : Word) : TollWrite h (.tollRegionWrite h n v) :=
  ⟨rfl, rfl, fun _ _ => ⟨_, _, rfl⟩⟩
theorem tollWrite_cfg (h : HpAttr) (v : Word) : TollWrite h (.registerWrite h 0x10010 v) :=
  ⟨rfl, rfl, fun _ hp => ⟨_, _, congrArg Host.Outcome.next (freed_off hp)⟩⟩

/-- From the keeper path a write does what its word does, where that changes nothing that is under watch. -/
theorem TollWrite.exec_keeper (hw : TollWrite h c) (hc : s.Calm) (hl : s.LetIn h) (hk : keeper h = true) {t : State}
    (hbody : hostBody c (s.seat h) = t) (hfm : t.fm = s.fm) (hgb : t.gb = s.gb) : Machine.exec c s = .next t := by
  obtain ⟨off, v, he⟩ := hw.exec s hc.pair
  rw [he, tollRow, if_pos hk, hostAccess_let hl hw.wf hw.beats hc.blocked, hbody,
    (hc.seat h).fin_eq (hfm.trans State.seat_fm.symm) (by rw [hgb, State.seat_gb])]

/-- A write that gives effect eff and is answered OK is one that KeeperDoes speaks of. -/
theorem keeperDoes_of_tollWrite {c : HpAttr → Instr} {pre : State → Prop} {eff : State → State} (hw : ∀ h, TollWrite h (c h))
    (hbody : ∀ (s : State) (h : HpAttr), s.LetIn h → pre s → hostBody (c h) (s.seat h) = (eff (s.seat h)).ok h)
    (hfm : ∀ s, (eff s).fm = s.fm) (hgb : ∀ s, (eff s).gb = s.gb) : KeeperDoes c pre eff :=
  fun s h hc hl hk hp =>
    (hw h).exec_keeper hc hl hk (hbody s h hl hp) ((hfm _).trans State.seat_fm) ((hgb _).trans State.seat_gb)

/-- A violation that finds a logged one is counted, marks the overflow, and is answered DENY in the precise mode (10 R248). -/
theorem State.violate_of_logged {q : HpReq} (hlog : s.tg.log.valid = true) (himp : s.tg.imprecise = false) (code : BitVec 4) :
    s.violate q code = ({ s with
      tg := { s.tg with violations := satInc s.tg.violations, log := { s.tg.log with overflow := true } } } : State).respond
        q.attr .deny (readBeats q) := by
  simp only [State.violate, hlog, himp, if_true, Bool.false_and, Bool.false_eq_true, if_false]

/-- From any other path the write is a violation (Table 10-1 row 3). -/
theorem TollWrite.exec_other (hw : TollWrite h c) (hc : s.Calm) (hl : s.LetIn h) (hk : keeper h = false)
    (himp : s.tg.imprecise = false) (hlog : s.tg.log.valid = true) :
    Machine.exec c s = .next (({ s.seat h with
      tg := { s.tg with violations := satInc s.tg.violations, log := { s.tg.log with overflow := true } } } : State).deny h) := by
  obtain ⟨off, v, he⟩ := hw.exec s hc.pair
  have hseat := hc.seat h
  rw [he, tollRow, hk, if_neg Bool.false_ne_true, hostEntry_let hl hw.wf hw.beats,
    State.violate_of_logged (by rwa [State.seat_tg]) (by rwa [State.seat_tg]), State.seat_tg]
  exact congrArg Host.Outcome.next (finNow_eq hseat.still hseat.gap hseat.mig hseat.pair)

/-! ### CLOSE, REOPEN and the regions (10 R244 to R246) -/

/-- CLOSE leaves the gate CLOSING while an access is unanswered. -/
theorem State.tollClose_of_open (hg : s.tg.gate = .opened) (hn : s.checkedCount ≠ 0) :
    s.tollClose = { s with tg.gate := .closing, tg.closes := satInc s.tg.closes } := by
  rw [State.tollClose, if_pos hg, State.gateCheck, if_neg]
  simpa [State.checkedCount] using hn

theorem State.tollClose_of_not_open (hg : s.tg.gate ≠ .opened) : s.tollClose = s := if_neg hg

/-- The regions may be changed and checked: the gate is CLOSED or FAULT and no check runs (10 R245, R246). -/
theorem regionsFree_iff :
    ((s.tg.gate = .closed || s.tg.gate = .fault) && s.tg.check.isNone) = true ↔
      s.tg.gate ∈ [Gate.closed, .fault] ∧ s.tg.check = none := by
  simp

/-- The two ways in which they may not. -/
theorem not_regionsFree_iff :
    ¬ (s.tg.gate ∈ [Gate.closed, .fault] ∧ s.tg.check = none) ↔ s.tg.gate ∈ [Gate.opened, .closing] ∨ s.tg.check ≠ none := by
  cases s.tg.gate <;> simp

theorem State.tollReopen_of_free (hf : s.tg.gate ∈ [Gate.closed, .fault] ∧ s.tg.check = none) :
    s.tollReopen = { s with tg.check := some s.tg.regions } := if_pos (regionsFree_iff.2 hf)

theorem State.tollReopen_of_not_free (hf : ¬ (s.tg.gate ∈ [Gate.closed, .fault] ∧ s.tg.check = none)) :
    s.tollReopen = s := if_neg (mt regionsFree_iff.1 hf)

theorem State.tollRegion_of_free (hf : s.tg.gate ∈ [Gate.closed, .fault] ∧ s.tg.check = none) (n : Nat) (v : Word) :
    s.tollRegion h n v = ({ s with tg.regions := tset {} s.tg.regions n (regionOf v) } : State).ok h :=
  if_pos (regionsFree_iff.2 hf)

theorem State.tollRegion_of_not_free (hf : ¬ (s.tg.gate ∈ [Gate.closed, .fault] ∧ s.tg.check = none)) (n : Nat) (v : Word) :
    s.tollRegion h n v = s.deny h := if_neg (mt regionsFree_iff.1 hf)

/-! ### What is noted of a change stays outside rest -/

theorem State.noteQuiet_rest (f : Nat) : (s.noteQuiet f).rest = s.rest := by
  unfold State.noteQuiet
  extract_lets q t
  split
  · rfl
  · split
    · exact (t.internal_keeps _ _).rest
    · rfl

theorem State.payGap_rest : s.payGap.rest = s.rest := by
  unfold State.payGap
  split
  · exact (State.internal_keeps _ _).rest
  · rfl

theorem noteDirty_rest (old : State) : (noteDirty old s).rest = s.rest := by
  unfold noteDirty
  split
  · split <;> rfl
  · rfl

theorem noteQuiets_rest (l : List Nat) : (l.foldl (fun s f => s.noteQuiet f) s).rest = s.rest := by
  induction l generalizing s with
  | nil => rfl
  | cons f l ih => exact ih.trans (State.noteQuiet_rest f)

theorem noted_rest (old : State) : (noted old s).rest = s.rest :=
  (noteDirty_rest old).trans (State.payGap_rest.trans (noteQuiets_rest _))

/-- Without a partner, what follows a change stays outside rest. -/
theorem fin_rest {old : State} (hp : old.mirrorOn = false) (c : Instr) : (fin old c s).rest = s.rest := by
  have hm : (!mirrored old (noted old s)) = true := by rw [mirrored_off hp]; rfl
  rw [fin, if_pos hm, noted_rest]

/-! ### The end of the region check (10 R246, R247) -/

/-- No access stalls, so none is judged. -/
theorem State.judgeStalled_none (hs : s.hp.stalled = []) : s.judgeStalled = s := by
  rw [State.judgeStalled, hs, List.foldl_nil, ← hs]

/-- A check without a fault opens the gate. -/
theorem State.reopenGate_of_sound {l : Tbl Region} (hc : s.tg.check = some l) (hf : tableFault l = none) :
    s.reopenGate = { s with tg.check := none, tg.gate := .opened, tg.fltValid := false } := by
  simp only [State.reopenGate, hc, hf]

/-- The Tollgate in FAULT with the region n, the code c and the region o that it overlaps. -/
def Tollgate.faulted (t : Tollgate) (n c o : Nat) : Tollgate :=
  { t with
    check := none, gate := .fault, faults := satInc t.faults, fltRegion := BitVec.ofNat 7 n, fltCode := BitVec.ofNat 3 c,
    fltOther := BitVec.ofNat 7 o, fltValid := true }

/-- A check that finds a fault leaves the gate in FAULT and posts it. -/
theorem State.reopenGate_of_fault {l : Tbl Region} {n c o : Nat} (hc : s.tg.check = some l) (hf : tableFault l = some (n, c, o)) :
    s.reopenGate = ({ s with tg := s.tg.faulted n c o } : State).internal srcTollViolation 8 := by
  simp only [State.reopenGate, hc, hf, Tollgate.faulted]

/-- A check in progress ends with the gate that it finds, and the stalled accesses are judged where that is OPEN. -/
theorem State.reopenEnd_of_check {l : Tbl Region} (hc : s.tg.check = some l) (c : Instr) :
    s.reopenEnd c =
      if (fin s c s.reopenGate).tg.gate = .opened then (fin s c s.reopenGate).judgeStalled else fin s c s.reopenGate := by
  rw [State.reopenEnd, hc]; rfl

/-- The block that runs and mirrors nothing ends the check. -/
theorem exec_reopenCheckComplete (hl : s.live = true) (hp : s.mirrorOn = false) :
    exec .reopenCheckComplete s = .next (s.reopenEnd .reopenCheckComplete) := by
  show Host.Outcome.next _ = _
  rw [if_pos hl, freed_off hp]

/-- A check that ends without a fault opens the gate, and does nothing else where no access stalls. -/
theorem coreDoes_reopenCheck_sound (l : Tbl Region) : CoreDoes .reopenCheckComplete
    (fun s => s.tg.check = some l ∧ tableFault l = none ∧ s.hp.stalled = [])
    fun s => { s with tg := { s.tg with check := none, gate := .opened, fltValid := false } } := by
  rintro s hc hl ⟨hcheck, hsound, hstall⟩
  have hgate := State.reopenGate_of_sound hcheck hsound
  have hfin : fin s .reopenCheckComplete s.reopenGate = s.reopenGate := hc.fin_eq (by rw [hgate]) (by rw [hgate]) _
  rw [exec_reopenCheckComplete hl hc.pair, State.reopenEnd_of_check hcheck, hfin, hgate, if_pos rfl]
  exact congrArg Host.Outcome.next (State.judgeStalled_none hstall)

/-- A check that finds a fault leaves the gate in FAULT; the post of the violation, and what it brings, stay outside rest. -/
theorem exec_reopenCheck_fault {l : Tbl Region} {n c o : Nat} (hp : s.mirrorOn = false) (hl : s.live = true)
    (hcheck : s.tg.check = some l) (hf : tableFault l = some (n, c, o)) :
    ∃ t, exec .reopenCheckComplete s = .next t ∧ t.rest = ({ s with tg := s.tg.faulted n c o } : State).rest := by
  have hrest : (fin s .reopenCheckComplete s.reopenGate).rest = ({ s with tg := s.tg.faulted n c o } : State).rest := by
    rw [fin_rest hp, State.reopenGate_of_fault hcheck hf, (State.internal_keeps _ _).rest]
  have htg : (fin s .reopenCheckComplete s.reopenGate).tg = s.tg.faulted n c o := congrArg State.tg hrest
  have hshut : ¬ (fin s .reopenCheckComplete s.reopenGate).tg.gate = .opened := by rw [htg]; exact Gate.noConfusion
  refine ⟨_, exec_reopenCheckComplete hl hp, ?_⟩
  rw [State.reopenEnd_of_check hcheck, if_neg hshut, hrest]

end Sys2Proof.Machine

open Sys2Proof Sys2Proof.Machine

/-- Settles O50: the judgement row by row of Table 10-1, the writes by the one frame of the Tollgate's window, the check by its end. -/
theorem tollgateJudgementAndGate : Obligations.TollgateJudgementAndGate := by
  refine ⟨fun s q => ⟨State.judge_of_beyond, State.judge_of_window, State.judge_of_shut, State.judge_of_page,
      State.judge_of_no_region, fun l l' n r => State.judge_of_region⟩,
    ?_, ?_, ?_, ?_, coreDoes_reopenCheck_sound, fun s l n c o => exec_reopenCheck_fault, ?_, ?_, ?_, ?_⟩
  · -- CLOSE of an OPEN gate
    refine keeperDoes_of_tollWrite tollWrite_close (fun s h hl hg => ?_) (fun _ => rfl) fun _ => rfl
    exact congrArg (State.ok · h) (State.tollClose_of_open (by rwa [State.seat_tg]) hl.checkedCount_seat_ne_zero)
  · -- CLOSE of any other
    refine keeperDoes_of_tollWrite tollWrite_close (fun s h hl hg => ?_) (fun _ => rfl) fun _ => rfl
    exact congrArg (State.ok · h) (State.tollClose_of_not_open (by rwa [State.seat_tg]))
  · -- REOPEN where the regions are free
    refine keeperDoes_of_tollWrite tollWrite_reopen (fun s h hl hf => ?_) (fun _ => rfl) fun _ => rfl
    exact congrArg (State.ok · h) (State.tollReopen_of_free (by rwa [State.seat_tg]))
  · -- REOPEN elsewhere
    refine keeperDoes_of_tollWrite tollWrite_reopen (fun s h hl hf => ?_) (fun _ => rfl) fun _ => rfl
    exact congrArg (State.ok · h) (State.tollReopen_of_not_free (by rw [State.seat_tg]; exact not_and_of_not_or_not hf))
  · -- a region written where they are free
    intro n v
    refine keeperDoes_of_tollWrite (fun h => tollWrite_region h n v) (fun s h hl hf => ?_) (fun _ => rfl) fun _ => rfl
    exact State.tollRegion_of_free (by rwa [State.seat_tg]) _ _
  · -- a region written elsewhere
    intro s h n v hc hl hk hf
    have hdeny : (s.seat h).tollRegion h n.toNat v = (s.seat h).deny h :=
      State.tollRegion_of_not_free (not_regionsFree_iff.2 (by rwa [State.seat_tg])) _ _
    exact (tollWrite_region h n v).exec_keeper hc hl hk hdeny State.seat_fm State.seat_gb
  · -- TOLL_CFG
    intro v
    exact keeperDoes_of_tollWrite (fun h => tollWrite_cfg h v) (fun s h hl _ => rfl) (fun _ => rfl) fun _ => rfl
  · -- any of them from another path
    intro s h n v c hc hl hk hmem himp hlog
    have hw : TollWrite h c := by
      simp only [List.mem_cons, List.not_mem_nil, or_false] at hmem
      obtain rfl | rfl | rfl | rfl := hmem
      · exact tollWrite_close h
      · exact tollWrite_reopen h
      · exact tollWrite_region h n v
      · exact tollWrite_cfg h v
    refine ⟨_, hw.exec_other hc hl hk himp hlog, rfl, rfl, ?_⟩
    rw [State.seat_eq]
    rfl

end

section
/-! What O49 needs: the egress port takes the write at the head of its queue, and ends a write that is answered (16 R344 to R347). -/
namespace Sys2Proof.Machine

variable {s : State} {c : Instr} {f eff : State → State} {pre : State → Prop}

/-! ### Commands of the always-on domain and the PHY -/

/-- A command whose body has effect eff, which leaves alone what is under watch, is one that LineDoes speaks of. -/
theorem lineDoes_of_portCmd (hexec : ∀ s, exec c s = .next (portCmd c s f)) (hwf : c.wf = true)
    (hbody : ∀ s, pre s → f s = eff s) (hfm : ∀ s, (eff s).fm = s.fm) (hgb : ∀ s, (eff s).gb = s.gb) : LineDoes c pre eff := by
  intro s hc hup hp
  rw [hexec, portCmd_up hup hwf, hbody s hp, hc.fin_eq (hfm s) (congrArg GuestBook.gapDue (hgb s))]

/-- The same for one that ends an access group, where the effect gives nothing a reason to wait. -/
theorem lineDoes_of_portEnd (hexec : ∀ s, exec c s = .next (portEnd c s f)) (hwf : c.wf = true)
    (hbody : ∀ s, pre s → f s = eff s) (hfm : ∀ s, (eff s).fm = s.fm) (hgb : ∀ s, (eff s).gb = s.gb)
    (hwaits : ∀ s : State, s.NoneWaits → (eff s).NoneWaits) : LineDoes c pre eff := by
  intro s hc hup hp
  rw [hexec, portEnd_up hup hwf, hbody s hp, hc.fin_eq (hfm s) (congrArg GuestBook.gapDue (hgb s)),
    (hwaits s hc.toNoneWaits).after]

/-! ### A write is issued (16 R344, Table 16-4) -/

/-- A write of no commit group waits for no partner. -/
theorem State.egressHead_of_no_group {w : EgWrite} (hq : s.ep.queue.head? = some w) (hg : w.group = none) :
    s.egressHead = some w := by
  obtain ⟨l, hl⟩ := List.head?_eq_some_iff.1 hq
  simp only [State.egressHead, hl, hg]

/-- The head write is taken under an identifier that no outstanding write has; the first write that waits moves up. -/
theorem State.egressTake_of_free {w : EgWrite} {id : BitVec 5} (hw : s.egressHead = some w)
    (hroom : s.ep.outstanding.length < 32) (hfree : ∀ o ∈ s.ep.outstanding, o.1 ≠ id) :
    s.egressTake id = { s with
      ep.queue := s.ep.queue.drop 1 ++ s.ep.spill.take 1, ep.spill := s.ep.spill.drop 1,
      ep.outstanding := s.ep.outstanding ++ [(id, s.issued w)] } := by
  have hnew : (s.ep.outstanding.any fun o => o.1 = id) = false :=
    List.any_eq_false.2 fun o ho => by simpa using hfree o ho
  simp [State.egressTake, hw, hnew, Nat.not_le.2 hroom]

/-- Without a run no commit waits for its writes to be taken. -/
theorem State.egressEnds_of_no_runs (h : s.pa.runs = []) : s.egressEnds = s := by
  simp [State.egressEnds, State.allRuns, h]

theorem State.issued_of_record {w : EgWrite} (hw : w.msix = false) : s.issued w = w := by simp [State.issued, hw]

/-- A message goes to its vector's address, rounded down to 4 bytes. -/
theorem State.issued_addr_of_message {w : EgWrite} (hw : w.msix = true) :
    (s.issued w).addr = ((s.fn w.fn.toNat).vec w.index.toNat).addr &&& ~~~(3 : Word) := by simp [State.issued, hw]

/-- Its data stands in the low half of the 8-byte word where its address lies there. -/
theorem State.issued_data_of_message {w : EgWrite} (hw : w.msix = true) (hlow : (s.issued w).addr.getLsbD 2 = false) :
    (s.issued w).data = ((s.fn w.fn.toNat).vec w.index.toNat).data.setWidth 128 := by
  rw [State.issued_addr_of_message hw] at hlow
  simp only [State.issued, hw, if_true, bit, hlow, Bool.false_eq_true, if_false]

/-! ### A write is answered (16 R346) -/

section
variable {id : BitVec 5} {code : BitVec 2} {w : EgWrite} (hf : s.ep.outstanding.find? (fun o => o.1 = id) = some (id, w))
include hf

/-- OK ends the write. -/
theorem State.egressAnswer_ok :
    s.egressAnswer id 0 = { s with ep.outstanding := s.ep.outstanding.filter fun o => o.1 ≠ id } := by
  simp only [State.egressAnswer, hf, if_true]

/-- Any other code ends it too; it is counted, and recorded where the log is clear. -/
theorem State.egressAnswer_denied_logged (hcode : code ≠ 0) (hlog : s.ep.logValid = false) :
    s.egressAnswer id code = { s with
      ep.outstanding := s.ep.outstanding.filter (fun o => o.1 ≠ id), ep.denied := satInc s.ep.denied,
      ep.logFn := w.fn, ep.logKind := w.msix, ep.logIndex := w.index, ep.logValid := true } := by
  simp only [State.egressAnswer, hf, if_neg hcode, hlog, Bool.false_eq_true, if_false]

/-- Where the log holds an earlier one, the overflow is marked. -/
theorem State.egressAnswer_denied_overflow (hcode : code ≠ 0) (hlog : s.ep.logValid = true) :
    s.egressAnswer id code = { s with
      ep.outstanding := s.ep.outstanding.filter (fun o => o.1 ≠ id), ep.denied := satInc s.ep.denied, ep.logOvf := true } := by
  simp only [State.egressAnswer, hf, if_neg hcode, hlog, if_true]

end

/-! ### The two commands of the port (14 R309) -/

/-- While PD_HOST has power, EGRESS_WRITE_ISSUE takes the head write. -/
theorem lineDoes_egressWriteIssue (id : BitVec 5) (w : EgWrite) : LineDoes (.egressWriteIssue id)
    (fun s => s.ep.queue.head? = some w ∧ w.group = none ∧ s.ep.outstanding.length < 32 ∧
      (∀ o ∈ s.ep.outstanding, o.1 ≠ id) ∧ s.pa.runs = [] ∧ s.powered 20 = true)
    fun s => { s with
      ep.queue := s.ep.queue.drop 1 ++ s.ep.spill.take 1, ep.spill := s.ep.spill.drop 1,
      ep.outstanding := s.ep.outstanding ++ [(id, s.issued w)] } := by
  refine lineDoes_of_portEnd (fun _ => rfl) rfl ?_ (fun _ => rfl) (fun _ => rfl) fun _ hn => { hn with }
  rintro s ⟨hq, hg, hroom, hfree, hruns, hpow⟩
  have htake := State.egressTake_of_free (State.egressHead_of_no_group hq hg) hroom hfree
  rw [if_pos hpow, htake]
  exact State.egressEnds_of_no_runs hruns

/-- While it has none, nothing is issued. -/
theorem lineDoes_egressWriteIssue_clamped (id : BitVec 5) :
    LineDoes (.egressWriteIssue id) (fun s => s.powered 20 = false) fun s => s :=
  lineDoes_of_portEnd (fun _ => rfl) rfl (fun _ hp => if_neg (by simp [hp])) (fun _ => rfl) (fun _ => rfl) fun _ hn => hn

/-- Nor is an answer seen. -/
theorem lineDoes_egressResponse_clamped (id : BitVec 5) (code : BitVec 2) :
    LineDoes (.egressResponse id code) (fun s => s.powered 20 = false) fun s => s :=
  lineDoes_of_portCmd (fun _ => rfl) rfl (fun _ hp => if_neg (by simp [hp])) (fun _ => rfl) fun _ => rfl

/-- While PD_HOST has power, EGRESS_RESPONSE does what its answer does. -/
theorem lineDoes_egressResponse {id : BitVec 5} {code : BitVec 2} (hpow : ∀ s, pre s → s.powered 20 = true)
    (hans : ∀ s, pre s → s.egressAnswer id code = eff s) (hfm : ∀ s, (eff s).fm = s.fm) (hgb : ∀ s, (eff s).gb = s.gb) :
    LineDoes (.egressResponse id code) pre eff :=
  lineDoes_of_portCmd (fun _ => rfl) rfl (fun s hp => (if_pos (hpow s hp)).trans (hans s hp)) hfm hgb

end Sys2Proof.Machine

open Sys2Proof Sys2Proof.Machine

/-- Settles O49: the head write is taken within the frame of the port's commands, and each answer ends its write, by its code and the
log's VALID. -/
theorem egressWrites : Obligations.EgressWrites := by
  refine ⟨lineDoes_egressWriteIssue,
    fun s w => ⟨State.issued_of_record, fun hw => ⟨State.issued_addr_of_message hw, State.issued_data_of_message hw⟩⟩,
    lineDoes_egressWriteIssue_clamped, lineDoes_egressResponse_clamped, ?_, ?_, ?_⟩
  · -- OK
    exact fun id w => lineDoes_egressResponse (fun _ hp => hp.1) (fun s ⟨_, hf⟩ => State.egressAnswer_ok hf)
      (fun _ => rfl) fun _ => rfl
  · -- DENY with a clear log
    exact fun id code w hcode => lineDoes_egressResponse (fun _ hp => hp.1)
      (fun s ⟨_, hf, hlog⟩ => State.egressAnswer_denied_logged hf hcode hlog) (fun _ => rfl) fun _ => rfl
  · -- DENY with a log in use
    exact fun id code w hcode => lineDoes_egressResponse (fun _ hp => hp.1)
      (fun s ⟨_, hf, hlog⟩ => State.egressAnswer_denied_overflow hf hcode hlog) (fun _ => rfl) fun _ => rfl

end
